-- ==== Sys2Proof/Word.lean ====
section
/-! DEFINITION. The word and byte types and the short word arrays of the engine (00_scope.md R7, R9). -/

namespace Sys2Proof

/-- A word of the engine: `W = 64` bits, unsigned (00_scope.md R7). -/
abbrev Word := BitVec 64

/-- A byte of the host's byte view (20_memory.md R53). -/
abbrev Byte := BitVec 8

/-- Two words: a raw tweak (`TWEAK_WORDS = 2`). -/
structure Words2 where
  w0 : Word
  w1 : Word
  deriving DecidableEq, Repr

/-- Three words: an expanded tweak (`ET_WORDS = 3`). -/
structure Words3 where
  w0 : Word
  w1 : Word
  w2 : Word
  deriving DecidableEq, Repr

/-- Four words: a raw key or a block (`KEY_WORDS = BLOCK_WORDS = 4`). Word 0 comes first. -/
structure Words4 where
  w0 : Word
  w1 : Word
  w2 : Word
  w3 : Word
  deriving DecidableEq, Repr

/-- Five words: an expanded key (`EK_WORDS = 5`). -/
structure Words5 where
  w0 : Word
  w1 : Word
  w2 : Word
  w3 : Word
  w4 : Word
  deriving DecidableEq, Repr

end Sys2Proof
end

