-- ==== Sys2Proof/Config.lean ====
section
/-! DEFINITION. The open parameters of the spec (00_scope.md R8) and its free values (93_implementation_defined.md I7). Each is an opaque constant: no proof can see what it is, so every claim holds whatever it is. -/

namespace Sys2Proof

/-- `ENGINE_BASE / 256`. The base must be a multiple of 256 (00_scope.md R8), so its quotient by 256 is what stays open. -/
opaque Config.enginePage : Nat

/-- `ENGINE_BASE`: the host byte address of offset 0 of the register window (00_scope.md R8, 20_memory.md R50). -/
def Config.engineBase : Nat := 256 * Config.enginePage

/-- `WINDOW_SIZE`: offsets `0x00..0xFF` (00_scope.md R8). -/
def Config.windowSize : Nat := 256

/-- `CMD_LATENCY`: a bound in clock cycles on every command (70_reset_and_hazards.md R235). No rule reads it, and neither does
the model, which has no time. Its being one number states that it is finite and depends on no key, tweak or block (R236). -/
opaque Config.cmdLatency : Nat

/-- The electrical form of the reset input (70_reset_and_hazards.md R231). -/
inductive ResetStyle where
  | synchronous
  | asynchronous
  deriving DecidableEq, Repr, Inhabited

/-- `RESET_STYLE`: no host can observe it, no rule reads it, and neither does the model (70_reset_and_hazards.md R231). -/
opaque Config.resetStyle : ResetStyle

/-- What can become of a host access that is under way when reset is asserted (60_exceptions.md R209). -/
inductive AbandonedResult where
  | completes
  | faults
  | hangs
  deriving DecidableEq, Repr, Inhabited

/-- FREE VALUE (log entry 4): which of the three outcomes the `k`-th abandoned access has (93_implementation_defined.md I7). -/
opaque Config.abandonedResult : Nat → AbandonedResult

/-- FREE VALUE (log entry 4): the data the `k`-th abandoned access returns if it is a read that completes
(93_implementation_defined.md I7). -/
opaque Config.abandonedData : Nat → Word

end Sys2Proof
end

