-- ==== Sys2Proof/Machine/State.lean ====
section
/-! DEFINITION. The engine's state (10_state.md R20), the host's side of the register port, and the reasons a step can stop. -/

namespace Sys2Proof.Machine

/-- The five command errors (60_exceptions.md R200), codes 1 to 5. -/
inductive CmdError where
  /-- Code 1: REKEY, INIT with `KLEN ≠ 32`. -/
  | invalidKeyLength
  /-- Code 2: RETWEAK, INIT with `TLEN ≠ 16`. -/
  | invalidTweakLength
  /-- Code 3: ENCRYPT, DECRYPT with `BLEN ≠ 32`. -/
  | invalidBlockLength
  /-- Code 4: a reserved `OP`, or a nonzero reserved bit. -/
  | invalidCommand
  /-- Code 5: ENCRYPT, DECRYPT without a key or a tweak. -/
  | contextNotInitialised
  deriving DecidableEq, Repr

/-- One bus access as the port receives it: the byte offset in the window (8 bits) and the size in bytes, which may be a
size the port does not take (20_memory.md R50, R55, 70_reset_and_hazards.md R239). -/
inductive Access where
  | read (off : BitVec 8) (size : Nat)
  | write (off : BitVec 8) (size : Nat) (wdata : Word)
  deriving DecidableEq, Repr

/-- What the two agents outside the engine can do to it (00_scope.md R12). -/
inductive HostEvent where
  /-- The host presents an access. -/
  | access (a : Access)
  /-- The reset input is asserted and deasserted, with no access under way (70_reset_and_hazards.md R230). -/
  | reset
  /-- The reset input is asserted while access `a` is under way: `a` is abandoned (60_exceptions.md R209). -/
  | resetDuring (a : Access)
  deriving DecidableEq, Repr

/-- What the port answers to an access (70_reset_and_hazards.md R239). -/
inductive Answer where
  /-- `ack` of a read, with `rdata`. -/
  | readData (rdata : Word)
  /-- `ack` of a write. -/
  | writeDone
  /-- `ack` with `err`, recorded only for an access that a reset abandoned; a bad access itself is a fault of the step. -/
  | errorResponse
  /-- No answer at all, recorded only for an access that a reset abandoned. -/
  | noAnswer
  deriving DecidableEq, Repr

/-- The engine's state, exactly the list of 10_state.md R20. -/
structure Engine where
  /-- `KEYIN[0..3]`, the raw key (R21). -/
  keyin : Words4
  /-- `TWEAKIN[0..1]`, the raw tweak (R22). -/
  tweakin : Words2
  /-- `DIN[0..3]`, the input block (R23). -/
  din : Words4
  /-- `DOUT[0..3]`, the output block of the last successful block command (R24). -/
  dout : Words4
  /-- `EK[0..4]`, the expanded key (R25). -/
  ek : Words5
  /-- `ET[0..2]`, the expanded tweak (R26). -/
  et : Words3
  /-- `STATUS.KEY_VALID` (R29). -/
  keyValid : Bool
  /-- `STATUS.TWEAK_VALID` (R30). -/
  tweakValid : Bool
  /-- `STATUS.ERR` (R31). -/
  err : Bool
  /-- `STATUS.ERRCODE`: `none` is code 0, OK (R31, 60_exceptions.md R200). -/
  errcode : Option CmdError
  deriving DecidableEq, Repr

/-- The engine, with what the model adds for the agents outside it: none of the three fields is the spec's. -/
structure State extends Engine where
  /-- The accesses and resets still to come, oldest first (20_memory.md R61; log entry 1). -/
  pending : List HostEvent
  /-- What the port last answered (log entry 2). -/
  answer : Option Answer
  /-- How many abandoned accesses have taken a free value (log entry 4). -/
  freeIndex : Nat
  deriving DecidableEq, Repr

/-- Why a step stops with a fault. -/
inductive Fault where
  /-- `AccessFault(addr)`, raised by the register port on an access that is not 8 bytes wide, not 8-byte aligned, or at an
  unmapped offset (60_exceptions.md R203). Exact for the spec, which calls it a fault outcome of the host's access step; safe. -/
  | accessFault (addr : Nat)
  deriving DecidableEq, Repr

/-- Why a step answers nothing. -/
inductive Refusal where
  /-- Raised by `exec` for a command without a meaning; no arm raises it, since all five commands have theirs. Safe. -/
  | notModelled (mnemonic : String)
  deriving DecidableEq, Repr

/-- The reset value of every element of 10_state.md R20 (70_reset_and_hazards.md R230). -/
def Engine.reset : Engine where
  keyin := ⟨0, 0, 0, 0⟩
  tweakin := ⟨0, 0⟩
  din := ⟨0, 0, 0, 0⟩
  dout := ⟨0, 0, 0, 0⟩
  ek := ⟨0, 0, 0, 0, 0x1BD11BDAA9FC1A22⟩
  et := ⟨0, 0, 0⟩
  keyValid := false
  tweakValid := false
  err := false
  errcode := none

/-- The machine right after reset: the engine's reset state, with nothing presented and nothing answered yet (log entries 1, 2, 4). -/
def State.reset : State where
  toEngine := Engine.reset
  pending := []
  answer := none
  freeIndex := 0

end Sys2Proof.Machine
end

