-- ==== Sys2Proof/Machine/Ops.lean ====
section
/-! DEFINITION. The word operations (00_scope.md R10), the indexed reads and writes of the register arrays (R11), and the named updates of the state, each written once. -/

namespace Sys2Proof

/-- Rotate left by `r` in `0..63` (00_scope.md R10). -/
def rotl (x : Word) (r : Nat) : Word := (x <<< r) ||| (x >>> (64 - r))

/-- Rotate right by `r` in `0..63` (00_scope.md R10). -/
def rotr (x : Word) (r : Nat) : Word := (x >>> r) ||| (x <<< (64 - r))

/-- `NAME[i]` of a two-word array (00_scope.md R11). -/
def Words2.get (a : Words2) : Fin 2 → Word
  | 0 => a.w0
  | 1 => a.w1

/-- `NAME[i] <- v` of a two-word array (00_scope.md R11). -/
def Words2.set (a : Words2) (i : Fin 2) (v : Word) : Words2 :=
  match i with
  | 0 => { a with w0 := v }
  | 1 => { a with w1 := v }

/-- `NAME[i]` of a three-word array (00_scope.md R11). -/
def Words3.get (a : Words3) : Fin 3 → Word
  | 0 => a.w0
  | 1 => a.w1
  | 2 => a.w2

/-- `NAME[i]` of a four-word array (00_scope.md R11). -/
def Words4.get (a : Words4) : Fin 4 → Word
  | 0 => a.w0
  | 1 => a.w1
  | 2 => a.w2
  | 3 => a.w3

/-- `NAME[i] <- v` of a four-word array (00_scope.md R11). -/
def Words4.set (a : Words4) (i : Fin 4) (v : Word) : Words4 :=
  match i with
  | 0 => { a with w0 := v }
  | 1 => { a with w1 := v }
  | 2 => { a with w2 := v }
  | 3 => { a with w3 := v }

/-- `NAME[i]` of a five-word array (00_scope.md R11). -/
def Words5.get (a : Words5) : Fin 5 → Word
  | 0 => a.w0
  | 1 => a.w1
  | 2 => a.w2
  | 3 => a.w3
  | 4 => a.w4

end Sys2Proof

namespace Sys2Proof.Machine

/-- The host's write of one `KEYIN` word (20_memory.md R58). -/
def State.writeKeyin (s : State) (i : Fin 4) (v : Word) : State := { s with keyin := s.keyin.set i v }

/-- The host's write of one `TWEAKIN` word (20_memory.md R58). -/
def State.writeTweakin (s : State) (i : Fin 2) (v : Word) : State := { s with tweakin := s.tweakin.set i v }

/-- The host's write of one `DIN` word (20_memory.md R58). -/
def State.writeDin (s : State) (i : Fin 4) (v : Word) : State := { s with din := s.din.set i v }

/-- Replace the expanded key, all five words at once, and set `KEY_VALID` (10_state.md R25, R29). -/
def State.loadKey (s : State) (ek : Words5) : State := { s with ek := ek, keyValid := true }

/-- Replace the expanded tweak, all three words at once, and set `TWEAK_VALID` (10_state.md R26, R30). -/
def State.loadTweak (s : State) (et : Words3) : State := { s with et := et, tweakValid := true }

/-- Replace the output block (10_state.md R24). -/
def State.storeDout (s : State) (b : Words4) : State := { s with dout := b }

/-- What every successful command writes to `STATUS` (10_state.md R31). -/
def State.succeed (s : State) : State := { s with err := false, errcode := none }

/-- `fail E`, the one way a command ends in an error: it writes `ERR` and `ERRCODE` and nothing else (60_exceptions.md R205).
The engine has no trap to enter and so none to return from (R207). -/
def State.fail (s : State) (e : CmdError) : State := { s with err := true, errcode := some e }

/-- Every state element of the engine takes its reset value (70_reset_and_hazards.md R230). -/
def State.resetEngine (s : State) : State := { s with toEngine := Engine.reset }

/-- The port takes the oldest event; `rest` is what is left (20_memory.md R61). -/
def State.consume (s : State) (rest : List HostEvent) : State := { s with pending := rest }

/-- The port answers an access (70_reset_and_hazards.md R239). -/
def State.reply (s : State) (a : Answer) : State := { s with answer := some a }

/-- One more free value has been used (log entry 4). -/
def State.spendFree (s : State) : State := { s with freeIndex := s.freeIndex + 1 }

end Sys2Proof.Machine
end

