-- ==== Sys2Proof/Machine/Mix.lean ====
section
/-! DEFINITION. The mixing network in both directions (41_mix_network.md R140 to R150). -/

namespace Sys2Proof

/-- `MIX(x0, x1, R)` (41_mix_network.md R140). -/
def mix (x0 x1 : Word) (r : Nat) : Word × Word :=
  let y0 := x0 + x1
  (y0, rotl x1 r ^^^ y0)

/-- `MIX_INV(y0, y1, R)` (41_mix_network.md R141). -/
def mixInv (y0 y1 : Word) (r : Nat) : Word × Word :=
  let x1 := rotr (y1 ^^^ y0) r
  (y0 - x1, x1)

/-- The rotation table `RT[d]`: the pair `(Ra, Rb)` (41_mix_network.md R142). -/
def rotTable : Fin 8 → Nat × Nat
  | 0 => (14, 16)
  | 1 => (52, 57)
  | 2 => (23, 40)
  | 3 => (5, 37)
  | 4 => (25, 33)
  | 5 => (46, 12)
  | 6 => (58, 22)
  | 7 => (32, 32)

/-- `RT[r mod 8]` (41_mix_network.md R142). -/
def rotPair (r : Nat) : Nat × Nat := rotTable (Fin.ofNat 8 r)

/-- `PERM`: swap positions 1 and 3 (41_mix_network.md R144). -/
def perm (v : Words4) : Words4 := ⟨v.w0, v.w3, v.w2, v.w1⟩

/-- `ROUND(V, r)` (41_mix_network.md R143). -/
def roundFwd (v : Words4) (r : Nat) : Words4 :=
  let f01 := mix v.w0 v.w1 (rotPair r).1
  let f23 := mix v.w2 v.w3 (rotPair r).2
  perm ⟨f01.1, f01.2, f23.1, f23.2⟩

/-- `ROUND_INV(V, r)`: the permutation is undone first (41_mix_network.md R145). -/
def roundInv (v : Words4) (r : Nat) : Words4 :=
  let u := perm v
  let x01 := mixInv u.w0 u.w1 (rotPair r).1
  let x23 := mixInv u.w2 u.w3 (rotPair r).2
  ⟨x01.1, x01.2, x23.1, x23.2⟩

/-- `EK[i mod 5]` (41_mix_network.md R146). -/
def ekAt (ek : Words5) (i : Nat) : Word := ek.get (Fin.ofNat 5 i)

/-- `ET[i mod 3]` (41_mix_network.md R146). -/
def etAt (et : Words3) (i : Nat) : Word := et.get (Fin.ofNat 3 i)

/-- `SUBKEY(s)`: word 0 takes no tweak word, and word 3 takes the counter in place of one (41_mix_network.md R146). -/
def subkey (ek : Words5) (et : Words3) (s : Nat) : Words4 :=
  ⟨ekAt ek s, ekAt ek (s + 1) + etAt et s, ekAt ek (s + 2) + etAt et (s + 1), ekAt ek (s + 3) + BitVec.ofNat 64 s⟩

/-- `INJECT(V, s)`: word-wise addition of `SUBKEY(s)` (41_mix_network.md R147). -/
def inject (ek : Words5) (et : Words3) (v : Words4) (s : Nat) : Words4 :=
  let k := subkey ek et s
  ⟨v.w0 + k.w0, v.w1 + k.w1, v.w2 + k.w2, v.w3 + k.w3⟩

/-- `EJECT(V, s)`: word-wise subtraction of `SUBKEY(s)` (41_mix_network.md R147). -/
def eject (ek : Words5) (et : Words3) (v : Words4) (s : Nat) : Words4 :=
  let k := subkey ek et s
  ⟨v.w0 - k.w0, v.w1 - k.w1, v.w2 - k.w2, v.w3 - k.w3⟩

/-- Round `r` of the forward transform, with the injection that follows it at the end of a group (41_mix_network.md R149). -/
def encRound (ek : Words5) (et : Words3) (v : Words4) (r : Nat) : Words4 :=
  let v' := roundFwd v r
  if r % 4 = 3 then inject ek et v' ((r + 1) / 4) else v'

/-- `ENC(EK, ET, P)`: injection 0, then rounds 0 to 71 (41_mix_network.md R149). -/
def enc (ek : Words5) (et : Words3) (p : Words4) : Words4 :=
  (List.range 72).foldl (encRound ek et) (inject ek et p 0)

/-- Round `r` of the inverse transform, with the injection that is undone after it at the start of a group (41_mix_network.md R150). -/
def decRound (ek : Words5) (et : Words3) (v : Words4) (r : Nat) : Words4 :=
  let v' := roundInv v r
  if r % 4 = 0 then eject ek et v' (r / 4) else v'

/-- `DEC(EK, ET, C)`: injection 18 is undone, then rounds 71 down to 0 (41_mix_network.md R150). -/
def dec (ek : Words5) (et : Words3) (c : Words4) : Words4 :=
  (List.range 72).reverse.foldl (decRound ek et) (eject ek et c 18)

end Sys2Proof
end

