-- ==== Sys2Proof/Syntax.lean ====
section
/-! DEFINITION. The five commands of spec/opcode_table.json, one constructor per row (30_encoding.md R81, R84). -/

namespace Sys2Proof

/-- A command with its three length fields, in the order `KLEN`, `TLEN`, `BLEN`. Each is a count of bytes (30_encoding.md R82).
A field the command ignores (R83) is kept, so that no bit of a command word is lost. -/
inductive Instr where
  /-- `OP = 0x1`: replace the expanded key (40_schedules.md R114). -/
  | rekey (klen tlen blen : Nat)
  /-- `OP = 0x2`: replace the expanded tweak (40_schedules.md R115). -/
  | retweak (klen tlen blen : Nat)
  /-- `OP = 0x3`: construct a context from a key and a tweak (40_schedules.md R116). -/
  | init (klen tlen blen : Nat)
  /-- `OP = 0x4`: forward transform of `DIN` (42_block_commands.md R181). -/
  | encrypt (klen tlen blen : Nat)
  /-- `OP = 0x5`: inverse transform of `DIN` (42_block_commands.md R182). -/
  | decrypt (klen tlen blen : Nat)
  deriving DecidableEq, Repr

end Sys2Proof
end

