-- ==== Sys2Proof/WellFormed.lean ====
section
/-! DEFINITION. When a command can be written in the CMD64 format: each length field is 0..255 (30_encoding.md R81, R82). -/

namespace Sys2Proof

/-- Every length fits its 8-bit field. -/
def lengthsFit (klen tlen blen : Nat) : Bool :=
  decide (klen ≤ 255) && decide (tlen ≤ 255) && decide (blen ≤ 255)

/-- A command that the CMD64 format can carry. -/
def Instr.wf : Instr → Bool
  | .rekey klen tlen blen => lengthsFit klen tlen blen
  | .retweak klen tlen blen => lengthsFit klen tlen blen
  | .init klen tlen blen => lengthsFit klen tlen blen
  | .encrypt klen tlen blen => lengthsFit klen tlen blen
  | .decrypt klen tlen blen => lengthsFit klen tlen blen

end Sys2Proof
end

