-- ==== Sys2Proof/Decode.lean ====
section
/-! DEFINITION. The little-endian byte form of a word (20_memory.md R53), the command decoder (30_encoding.md R80, R81, R85), total on any word and any bytes and rejecting by name, and the encoder written from the same field table. -/

namespace Sys2Proof

/-- Byte `j` of a word: bits `[8j+7 : 8j]` (20_memory.md R53). -/
def byteOf (w : Word) (j : Nat) : Byte := w.extractLsb' (8 * j) 8

/-- `le_bytes` of one word: byte 0, the least significant, first (00_scope.md R11). -/
def leBytes (w : Word) : List Byte :=
  [byteOf w 0, byteOf w 1, byteOf w 2, byteOf w 3, byteOf w 4, byteOf w 5, byteOf w 6, byteOf w 7]

/-- A little-endian byte string as a number: the sum of `B[j] * 2^(8j)` (00_scope.md R11). -/
def leNat : List Byte → Nat
  | [] => 0
  | b :: bs => b.toNat + 256 * leNat bs

/-- The word of a little-endian byte string of up to 8 bytes (00_scope.md R11). -/
def leWord (bs : List Byte) : Word := BitVec.ofNat 64 (leNat bs)

/-- Why a command word is illegal (30_encoding.md R85). Each of the first three is the command error `InvalidCommand`. -/
inductive DecodeError where
  /-- `RSV0 ≠ 0`, bits `[7:4]`. -/
  | reservedBits0
  /-- `RSV1 ≠ 0`, bits `[63:32]`. -/
  | reservedBits1
  /-- `OP = 0x0` or `OP` in `0x6..0xF`. -/
  | reservedOp
  /-- Fewer than the 8 bytes of a command word. Raised by `decode` alone: no access of the port carries fewer (20_memory.md R55). -/
  | truncated
  deriving DecidableEq, Repr

/-- `OP`, bits `[3:0]` (30_encoding.md R81). -/
def opField (w : Word) : BitVec 4 := w.extractLsb' 0 4

/-- `RSV0`, bits `[7:4]` (30_encoding.md R81). -/
def rsv0Field (w : Word) : BitVec 4 := w.extractLsb' 4 4

/-- `KLEN`, bits `[15:8]`, an unsigned count of bytes (30_encoding.md R81, R82). -/
def klenField (w : Word) : Nat := (w.extractLsb' 8 8).toNat

/-- `TLEN`, bits `[23:16]`, an unsigned count of bytes (30_encoding.md R81, R82). -/
def tlenField (w : Word) : Nat := (w.extractLsb' 16 8).toNat

/-- `BLEN`, bits `[31:24]`, an unsigned count of bytes (30_encoding.md R81, R82). -/
def blenField (w : Word) : Nat := (w.extractLsb' 24 8).toNat

/-- `RSV1`, bits `[63:32]` (30_encoding.md R81). -/
def rsv1Field (w : Word) : BitVec 32 := w.extractLsb' 32 32

/-- The opcode map (30_encoding.md R84). -/
def decodeOp (op : BitVec 4) (klen tlen blen : Nat) : Except DecodeError Instr :=
  match op with
  | 0x1#4 => .ok (.rekey klen tlen blen)
  | 0x2#4 => .ok (.retweak klen tlen blen)
  | 0x3#4 => .ok (.init klen tlen blen)
  | 0x4#4 => .ok (.encrypt klen tlen blen)
  | 0x5#4 => .ok (.decrypt klen tlen blen)
  | _ => .error .reservedOp

/-- Decode a command word: the reserved bits first, then `OP` (30_encoding.md R80, 60_exceptions.md R202). -/
def decodeWord (w : Word) : Except DecodeError Instr :=
  if rsv0Field w ≠ 0 then .error .reservedBits0
  else if rsv1Field w ≠ 0 then .error .reservedBits1
  else decodeOp (opField w) (klenField w) (tlenField w) (blenField w)

/-- Decode the command at the head of a byte string, as the port stores a word (20_memory.md R53), with the bytes after it. -/
def decode : List Byte → Except DecodeError (Instr × List Byte)
  | b0 :: b1 :: b2 :: b3 :: b4 :: b5 :: b6 :: b7 :: rest =>
    (decodeWord (leWord [b0, b1, b2, b3, b4, b5, b6, b7])).map (·, rest)
  | _ => .error .truncated

/-- The command `decode` reads from a row's bits as spec/opcode_table.json numbers them: bit 0 is the least significant bit
of the one 64-bit word, stored little-endian. Every bit from `nbits` up is 0. -/
def decodeTableWord (nbits w : Nat) : Option Instr :=
  match decode (leBytes (BitVec.ofNat 64 (w % 2 ^ nbits))) with
  | .ok (i, _) => some i
  | .error _ => none

/-- `OP` of a command (30_encoding.md R84). -/
def Instr.op : Instr → BitVec 4
  | .rekey _ _ _ => 0x1#4
  | .retweak _ _ _ => 0x2#4
  | .init _ _ _ => 0x3#4
  | .encrypt _ _ _ => 0x4#4
  | .decrypt _ _ _ => 0x5#4

/-- `KLEN` of a command. -/
def Instr.klen : Instr → Nat
  | .rekey klen _ _ | .retweak klen _ _ | .init klen _ _ | .encrypt klen _ _ | .decrypt klen _ _ => klen

/-- `TLEN` of a command. -/
def Instr.tlen : Instr → Nat
  | .rekey _ tlen _ | .retweak _ tlen _ | .init _ tlen _ | .encrypt _ tlen _ | .decrypt _ tlen _ => tlen

/-- `BLEN` of a command. -/
def Instr.blen : Instr → Nat
  | .rekey _ _ blen | .retweak _ _ blen | .init _ _ blen | .encrypt _ _ blen | .decrypt _ _ blen => blen

/-- The command word of a command, its fields from bit 63 down: `RSV1`, `BLEN`, `TLEN`, `KLEN`, `RSV0`, `OP` (30_encoding.md R81). -/
def encodeWord (i : Instr) : Word :=
  0#32 ++ BitVec.ofNat 8 i.blen ++ BitVec.ofNat 8 i.tlen ++ BitVec.ofNat 8 i.klen ++ 0#4 ++ i.op

/-- The bytes of a command word in the port's byte order (20_memory.md R53). -/
def encode (i : Instr) : List Byte := leBytes (encodeWord i)

end Sys2Proof
end

