-- ==== Sys2Proof/Machine/Flags.lean ====
section
/-! DEFINITION. The STATUS register as the host reads it (10_state.md R28) and the numbers of the error codes (60_exceptions.md R200). -/

namespace Sys2Proof.Machine

/-- The code of a command error (60_exceptions.md R200). -/
def CmdError.code : CmdError → BitVec 4
  | .invalidKeyLength => 1
  | .invalidTweakLength => 2
  | .invalidBlockLength => 3
  | .invalidCommand => 4
  | .contextNotInitialised => 5

/-- The four bits of `ERRCODE`; 0 is OK (10_state.md R28, 60_exceptions.md R200). -/
def errcodeBits : Option CmdError → BitVec 4
  | none => 0
  | some e => e.code

/-- `STATUS`: `zext_64(ERRCODE || 0b0 || ERR || TWEAK_VALID || KEY_VALID)` (20_memory.md R57, 10_state.md R28). -/
def State.status (s : State) : Word :=
  (errcodeBits s.errcode ++ 0#1 ++ BitVec.ofBool s.err ++ BitVec.ofBool s.tweakValid ++ BitVec.ofBool s.keyValid).setWidth 64

/-- A block command has its context: both valid flags are 1 (42_block_commands.md R180). -/
def State.contextReady (s : State) : Bool := s.keyValid && s.tweakValid

end Sys2Proof.Machine
end

