-- ==== Sys2Proof/Machine/Operands.lean ====
section
/-! DEFINITION. The operands: the byte counts a command requires (30_encoding.md R82), the register map (20_memory.md R52), and the little-endian byte view of the window (R53). -/

namespace Sys2Proof

/-- `le_words(bytes, n)`: `n` words from a byte string (00_scope.md R11). -/
def leWords (bytes : List Byte) : Nat → List Word
  | 0 => []
  | n + 1 => leWord (bytes.take 8) :: leWords (bytes.drop 8) n

/-- The required `KLEN`, 32 bytes (30_encoding.md R82). -/
def requiredKlen : Nat := 32

/-- The required `TLEN`, 16 bytes (30_encoding.md R82). -/
def requiredTlen : Nat := 16

/-- The required `BLEN`, 32 bytes (30_encoding.md R82). -/
def requiredBlen : Nat := 32

end Sys2Proof

namespace Sys2Proof.Machine

/-- The registers of the window, one constructor per name of the register map (20_memory.md R52). -/
inductive Reg where
  | cmd
  | status
  | keyin (i : Fin 4)
  | tweakin (i : Fin 2)
  | din (i : Fin 4)
  | dout (i : Fin 4)
  deriving DecidableEq, Repr

/-- The register map: which register is at a byte offset, none where the offset is no register's (20_memory.md R52). -/
def regAt (off : BitVec 8) : Option Reg :=
  match off with
  | 0x00#8 => some .cmd
  | 0x08#8 => some .status
  | 0x10#8 => some (.keyin 0)
  | 0x18#8 => some (.keyin 1)
  | 0x20#8 => some (.keyin 2)
  | 0x28#8 => some (.keyin 3)
  | 0x30#8 => some (.tweakin 0)
  | 0x38#8 => some (.tweakin 1)
  | 0x40#8 => some (.din 0)
  | 0x48#8 => some (.din 1)
  | 0x50#8 => some (.din 2)
  | 0x58#8 => some (.din 3)
  | 0x60#8 => some (.dout 0)
  | 0x68#8 => some (.dout 1)
  | 0x70#8 => some (.dout 2)
  | 0x78#8 => some (.dout 3)
  | _ => none

/-- What a register holds; `CMD` holds nothing and shows 0 (10_state.md R32). -/
def State.regValue (s : State) : Reg → Word
  | .cmd => 0
  | .status => s.status
  | .keyin i => s.keyin.get i
  | .tweakin i => s.tweakin.get i
  | .din i => s.din.get i
  | .dout i => s.dout.get i

/-- What the host reads from a register: `CMD` and `KEYIN` are write-only and read 0 (20_memory.md R57). -/
def State.readReg (s : State) : Reg → Word
  | .cmd => 0
  | .status => s.status
  | .keyin _ => 0
  | .tweakin i => s.tweakin.get i
  | .din i => s.din.get i
  | .dout i => s.dout.get i

/-- The byte at an offset of the window: byte `off mod 8` of the register at the offset below it that is a multiple of 8,
none at an unmapped offset (20_memory.md R53). It is the view of what the registers HOLD; no access reads one byte (R55). -/
def State.windowByte (s : State) (off : BitVec 8) : Option Byte :=
  (regAt (off &&& 0xF8#8)).map fun r => byteOf (s.regValue r) (off.toNat % 8)

end Sys2Proof.Machine
end

