-- ==== Sys2Proof/Machine/Block.lean ====
section
/-! DEFINITION. The block commands ENCRYPT and DECRYPT (42_block_commands.md R180 to R182). -/

namespace Sys2Proof.Machine

/-- A block command with the transform `f`: the context check, then the block length, then the result (42_block_commands.md
R181, R182, 60_exceptions.md R202). -/
def blockCommand (f : Words5 → Words3 → Words4 → Words4) (blen : Nat) (s : State) : Host.Outcome State Fault Refusal :=
  if ¬ s.contextReady then .next (s.fail .contextNotInitialised)
  else if blen ≠ requiredBlen then .next (s.fail .invalidBlockLength)
  else .next ((s.storeDout (f s.ek s.et s.din)).succeed)

/-- ENCRYPT: the forward transform of `DIN`; `KLEN` and `TLEN` are ignored (42_block_commands.md R181). -/
def execEncrypt (_klen _tlen blen : Nat) (s : State) : Host.Outcome State Fault Refusal := blockCommand enc blen s

/-- DECRYPT: the inverse transform of `DIN`; `KLEN` and `TLEN` are ignored (42_block_commands.md R182). -/
def execDecrypt (_klen _tlen blen : Nat) (s : State) : Host.Outcome State Fault Refusal := blockCommand dec blen s

end Sys2Proof.Machine
end

