-- ==== Sys2Proof/Machine/Schedule.lean ====
section
/-! DEFINITION. The key schedule and the tweak schedule (40_schedules.md R110 to R112). -/

namespace Sys2Proof

/-- The schedule constant `C240` (40_schedules.md R111). -/
def c240 : Word := 0x1BD11BDAA9FC1A22

/-- `KeySchedule`: the raw key and its parity word (40_schedules.md R110). -/
def keySchedule (k : Words4) : Words5 :=
  ⟨k.w0, k.w1, k.w2, k.w3, c240 ^^^ k.w0 ^^^ k.w1 ^^^ k.w2 ^^^ k.w3⟩

/-- `TweakSchedule`: the raw tweak and its parity word (40_schedules.md R112). -/
def tweakSchedule (t : Words2) : Words3 := ⟨t.w0, t.w1, t.w0 ^^^ t.w1⟩

end Sys2Proof
end

