-- ==== Sys2Proof/Machine/Context.lean ====
section
/-! DEFINITION. The context commands REKEY, RETWEAK and INIT (40_schedules.md R114 to R116). -/

namespace Sys2Proof.Machine

/-- REKEY: replace the expanded key; `TLEN` and `BLEN` are ignored (40_schedules.md R114). -/
def execRekey (klen _tlen _blen : Nat) (s : State) : Host.Outcome State Fault Refusal :=
  if klen ≠ requiredKlen then .next (s.fail .invalidKeyLength)
  else .next ((s.loadKey (keySchedule s.keyin)).succeed)

/-- RETWEAK: replace the expanded tweak; `KLEN` and `BLEN` are ignored (40_schedules.md R115). -/
def execRetweak (_klen tlen _blen : Nat) (s : State) : Host.Outcome State Fault Refusal :=
  if tlen ≠ requiredTlen then .next (s.fail .invalidTweakLength)
  else .next ((s.loadTweak (tweakSchedule s.tweakin)).succeed)

/-- INIT: replace both, checking both lengths before anything is written; `BLEN` is ignored (40_schedules.md R116). -/
def execInit (klen tlen _blen : Nat) (s : State) : Host.Outcome State Fault Refusal :=
  if klen ≠ requiredKlen then .next (s.fail .invalidKeyLength)
  else if tlen ≠ requiredTlen then .next (s.fail .invalidTweakLength)
  else .next (((s.loadKey (keySchedule s.keyin)).loadTweak (tweakSchedule s.tweakin)).succeed)

end Sys2Proof.Machine
end

