-- ==== Sys2Proof/Machine/Dispatch.lean ====
section
/-! DEFINITION. The dispatch of a decoded command to its meaning, one arm per constructor (30_encoding.md R80). -/

namespace Sys2Proof.Machine

def exec (i : Instr) (s : State) : Host.Outcome State Fault Refusal :=
  match i with
  | .rekey klen tlen blen => Sys2Proof.Machine.execRekey klen tlen blen s
  | .retweak klen tlen blen => Sys2Proof.Machine.execRetweak klen tlen blen s
  | .init klen tlen blen => Sys2Proof.Machine.execInit klen tlen blen s
  | .encrypt klen tlen blen => Sys2Proof.Machine.execEncrypt klen tlen blen s
  | .decrypt klen tlen blen => Sys2Proof.Machine.execDecrypt klen tlen blen s

end Sys2Proof.Machine
end

