-- ==== Sys2Proof/Machine/Port.lean ====
section
/-! DEFINITION. The register port: host reads and writes (20_memory.md R55 to R58), running a command word (30_encoding.md R80), and the reset input (70_reset_and_hazards.md R230, 60_exceptions.md R209). -/

namespace Sys2Proof.Machine

/-- The offset of a host byte address in the window; none outside it, where the access is not the engine's (20_memory.md R50). -/
def windowOffset (addr : Nat) : Option (BitVec 8) :=
  if Config.engineBase ≤ addr ∧ addr < Config.engineBase + Config.windowSize then
    some (BitVec.ofNat 8 (addr - Config.engineBase))
  else none

/-- The host byte address of an offset of the window (20_memory.md R50). -/
def hostAddress (off : BitVec 8) : Nat := Config.engineBase + off.toNat

/-- `raise AccessFault(addr)` (60_exceptions.md R203). -/
def raiseAccessFault (off : BitVec 8) : Host.Outcome State Fault Refusal := .fault (.accessFault (hostAddress off))

/-- The one form of access the port takes: 8 bytes, naturally aligned (20_memory.md R55). -/
def goodForm (off : BitVec 8) (size : Nat) : Bool := decide (size = 8) && decide (off.toNat % 8 = 0)

/-- `Command(w)`: run a command word; an illegal word is the command error `InvalidCommand` (30_encoding.md R80, R85). -/
def command (w : Word) (s : State) : Host.Outcome State Fault Refusal :=
  match decodeWord w with
  | .ok i => exec i s
  | .error _ => .next (s.fail .invalidCommand)

/-- A host write of a register: a command for `CMD`, nothing for `STATUS` and `DOUT`, else that register alone (20_memory.md R58). -/
def writeReg (r : Reg) (w : Word) (s : State) : Host.Outcome State Fault Refusal :=
  match r with
  | .cmd => command w s
  | .status => .next s
  | .keyin i => .next (s.writeKeyin i w)
  | .tweakin i => .next (s.writeTweakin i w)
  | .din i => .next (s.writeDin i w)
  | .dout _ => .next s

/-- `MemRead` at an offset: the answer carries the register's read value, and no register changes (20_memory.md R57). -/
def portRead (off : BitVec 8) (size : Nat) (s : State) : Host.Outcome State Fault Refusal :=
  if goodForm off size then
    match regAt off with
    | some r => .next (s.reply (.readData (s.readReg r)))
    | none => raiseAccessFault off
  else raiseAccessFault off

/-- `MemWrite` at an offset (20_memory.md R58). The write is acknowledged once it is complete, a command included
(70_reset_and_hazards.md R234); the acknowledgement and the writes land in one step. -/
def portWrite (off : BitVec 8) (size : Nat) (w : Word) (s : State) : Host.Outcome State Fault Refusal :=
  if goodForm off size then
    match regAt off with
    | some r => writeReg r w (s.reply .writeDone)
    | none => raiseAccessFault off
  else raiseAccessFault off

/-- The port performs one access (20_memory.md R61). -/
def portAccess (a : Access) (s : State) : Host.Outcome State Fault Refusal :=
  match a with
  | .read off size => portRead off size s
  | .write off size w => portWrite off size w s

/-- What the host sees of the `k`-th access that a reset abandons: any of the three outcomes, and any data for a read
(60_exceptions.md R209, 93_implementation_defined.md I7; free values, log entry 4). -/
def abandonedAnswer (k : Nat) (a : Access) : Answer :=
  match Config.abandonedResult k with
  | .completes =>
    match a with
    | .read _ _ => .readData (Config.abandonedData k)
    | .write _ _ _ => .writeDone
  | .faults => .errorResponse
  | .hangs => .noAnswer

/-- Reset wins over an access under way: the engine takes the reset state and the access has an open outcome (60_exceptions.md R209). -/
def abandon (a : Access) (s : State) : State :=
  ((s.reply (abandonedAnswer s.freeIndex a)).spendFree).resetEngine

/-- Serve one event of the two agents (00_scope.md R12). -/
def serve (e : HostEvent) (s : State) : Host.Outcome State Fault Refusal :=
  match e with
  | .access a => portAccess a s
  | .reset => .next s.resetEngine
  | .resetDuring a => .next (abandon a s)

/-- One step of the machine: the oldest event is taken and served; with none presented, every register keeps its value
(20_memory.md R61, 60_exceptions.md R215). -/
def serveNext (s : State) : Host.Outcome State Fault Refusal :=
  match s.pending with
  | [] => .next s
  | e :: rest => serve e (s.consume rest)

/-- The host presents the write of command word `w` to `CMD` before everything else it has to present (30_encoding.md R80). -/
def State.presentCommand (s : State) (w : Word) : State :=
  { s with pending := .access (.write 0x00#8 8 w) :: s.pending }

end Sys2Proof.Machine
end

