-- ==== Sys2Proof/Machine/Step.lean ====
section
/-! DEFINITION. One step of the machine, and how a command word is placed where the next step takes it. -/

namespace Sys2Proof.Machine

/-- One step: serve the oldest access or reset (20_memory.md R61). A command is one atomic step (70_reset_and_hazards.md R234). -/
def step (s : State) : Host.Outcome State Fault Refusal := serveNext s

/-- The state in which the host's next access writes the command word whose low `nbits` bits are those of `w` to `CMD`
(log entry 1). -/
def State.withFetchWord (s : State) (nbits w : Nat) : State := s.presentCommand (BitVec.ofNat 64 (w % 2 ^ nbits))

end Sys2Proof.Machine
end

