-- ==== Sys2Proof/Laws/Encoding.lean ====
section
/-! SUPPORT. Small lemmas of the encoder, the decoder and the byte form of a word. -/

namespace Sys2Proof

theorem lengthsFit_iff (k t b : Nat) : lengthsFit k t b = true ↔ k ≤ 255 ∧ t ≤ 255 ∧ b ≤ 255 := by
  simp [lengthsFit, and_assoc]

/-- A well-formed command's three lengths are at most 255. -/
theorem Instr.wf_iff (i : Instr) : i.wf = true ↔ i.klen ≤ 255 ∧ i.tlen ≤ 255 ∧ i.blen ≤ 255 := by
  cases i <;> exact lengthsFit_iff _ _ _

/-- An appended vector as a number: the high part counts in units of the low part's range. -/
theorem toNat_append_eq {n m : Nat} (x : BitVec n) (y : BitVec m) :
    (x ++ y).toNat = x.toNat * 2 ^ m + y.toNat := by
  rw [BitVec.toNat_append, ← Nat.shiftLeft_add_eq_or_of_lt y.isLt, Nat.shiftLeft_eq]

/-- A command word as a number, field by field. -/
theorem encodeWord_toNat (i : Instr) : (encodeWord i).toNat =
    i.op.toNat + 2 ^ 8 * (i.klen % 256) + 2 ^ 16 * (i.tlen % 256) + 2 ^ 24 * (i.blen % 256) := by
  have h : (encodeWord i).toNat =
      (0#32 ++ BitVec.ofNat 8 i.blen ++ BitVec.ofNat 8 i.tlen ++ BitVec.ofNat 8 i.klen ++ 0#4 ++ i.op).toNat := rfl
  rw [h]
  simp only [toNat_append_eq, BitVec.toNat_ofNat]
  omega

theorem opField_toNat (w : Word) : (opField w).toNat = w.toNat % 16 := by
  simp [opField]

theorem rsv0Field_toNat (w : Word) : (rsv0Field w).toNat = w.toNat / 16 % 16 := by
  simp [rsv0Field, Nat.shiftRight_eq_div_pow]

theorem klenField_eq (w : Word) : klenField w = w.toNat / 2 ^ 8 % 256 := by
  simp [klenField, Nat.shiftRight_eq_div_pow]

theorem tlenField_eq (w : Word) : tlenField w = w.toNat / 2 ^ 16 % 256 := by
  simp [tlenField, Nat.shiftRight_eq_div_pow]

theorem blenField_eq (w : Word) : blenField w = w.toNat / 2 ^ 24 % 256 := by
  simp [blenField, Nat.shiftRight_eq_div_pow]

theorem rsv1Field_toNat (w : Word) : (rsv1Field w).toNat = w.toNat / 2 ^ 32 := by
  have := w.isLt
  simp [rsv1Field, Nat.shiftRight_eq_div_pow]
  omega

theorem opField_encodeWord (i : Instr) : opField (encodeWord i) = i.op := by
  have := i.op.isLt
  apply BitVec.eq_of_toNat_eq
  rw [opField_toNat, encodeWord_toNat]
  omega

theorem rsv0Field_encodeWord (i : Instr) : rsv0Field (encodeWord i) = 0 := by
  have := i.op.isLt
  apply BitVec.eq_of_toNat_eq
  rw [rsv0Field_toNat, encodeWord_toNat]
  simp
  omega

theorem rsv1Field_encodeWord (i : Instr) : rsv1Field (encodeWord i) = 0 := by
  have := i.op.isLt
  apply BitVec.eq_of_toNat_eq
  rw [rsv1Field_toNat, encodeWord_toNat]
  simp
  omega

theorem klenField_encodeWord (i : Instr) : klenField (encodeWord i) = i.klen % 256 := by
  have := i.op.isLt
  rw [klenField_eq, encodeWord_toNat]
  omega

theorem tlenField_encodeWord (i : Instr) : tlenField (encodeWord i) = i.tlen % 256 := by
  have := i.op.isLt
  rw [tlenField_eq, encodeWord_toNat]
  omega

theorem blenField_encodeWord (i : Instr) : blenField (encodeWord i) = i.blen % 256 := by
  have := i.op.isLt
  rw [blenField_eq, encodeWord_toNat]
  omega

theorem byteOf_toNat (w : Word) (j : Nat) : (byteOf w j).toNat = w.toNat / 2 ^ (8 * j) % 256 := by
  simp [byteOf, Nat.shiftRight_eq_div_pow]

/-- Reading a word's own little-endian bytes gives the word. -/
theorem leWord_leBytes (w : Word) : leWord (leBytes w) = w := by
  have := w.isLt
  apply BitVec.eq_of_toNat_eq
  simp only [leWord, leBytes, leNat, byteOf_toNat, BitVec.toNat_ofNat]
  omega

/-- A whole word's bytes decode as the word does. -/
theorem decode_leBytes (w : Word) (rest : List Byte) :
    decode (leBytes w ++ rest) = (decodeWord w).map (·, rest) := by
  have h : decode (leBytes w ++ rest) = (decodeWord (leWord (leBytes w))).map (·, rest) := rfl
  rw [h, leWord_leBytes]

end Sys2Proof
end

