-- ==== Sys2Proof/Laws/PerInstr.lean ====
section
/-! SUPPORT. The statement made of every command as syntax: its word carries its `OP` and no reserved bit (30_encoding.md R81, R84), one lemma per constructor. -/

namespace Sys2Proof.Laws.EncodedForm

/-- The word of a command has the command's `OP`, which is one of 1 to 5, and zero in both reserved fields. -/
def Statement (i : Instr) : Prop :=
  (encodeWord i).toNat % 16 = i.op.toNat ∧ 1 ≤ i.op.toNat ∧ i.op.toNat ≤ 5 ∧
  (encodeWord i).toNat / 16 % 16 = 0 ∧ (encodeWord i).toNat / 2 ^ 32 = 0

/-- The arithmetic all five lemmas share. -/
theorem of_op (i : Instr) (h : 1 ≤ i.op.toNat ∧ i.op.toNat ≤ 5) : Statement i := by
  unfold Statement
  rw [encodeWord_toNat]
  omega

theorem rekey (klen tlen blen : Nat) : Statement (.rekey klen tlen blen) := of_op _ (by decide : 1 ≤ (0x1#4).toNat ∧ (0x1#4).toNat ≤ 5)
theorem retweak (klen tlen blen : Nat) : Statement (.retweak klen tlen blen) := of_op _ (by decide : 1 ≤ (0x2#4).toNat ∧ (0x2#4).toNat ≤ 5)
theorem init (klen tlen blen : Nat) : Statement (.init klen tlen blen) := of_op _ (by decide : 1 ≤ (0x3#4).toNat ∧ (0x3#4).toNat ≤ 5)
theorem encrypt (klen tlen blen : Nat) : Statement (.encrypt klen tlen blen) := of_op _ (by decide : 1 ≤ (0x4#4).toNat ∧ (0x4#4).toNat ≤ 5)
theorem decrypt (klen tlen blen : Nat) : Statement (.decrypt klen tlen blen) := of_op _ (by decide : 1 ≤ (0x5#4).toNat ∧ (0x5#4).toNat ≤ 5)

end Sys2Proof.Laws.EncodedForm
end

