-- ==== Sys2Proof/Machine/MicroSteps.lean ====
section
/-! DEFINITION. The round-level refinement of the two transforms (41_mix_network.md R160): which micro-step runs when depends on the round and injection indices alone (R158), so the schedule is a list that no key, tweak or block enters. The machine's own steps are the atomic commands; nothing here is state. -/

namespace Sys2Proof

/-- One micro-step on the hidden working block (41_mix_network.md R160, 10_state.md R33). -/
inductive MicroOp where
  | inject (s : Nat)
  | round (r : Nat)
  | eject (s : Nat)
  | roundInv (r : Nat)
  deriving DecidableEq, Repr

/-- The forward micro-steps of round `r`: the round, and at the end of a group the next injection (41_mix_network.md R160). -/
def forwardOpsOf (r : Nat) : List MicroOp :=
  if r % 4 = 3 then [.round r, .inject ((r + 1) / 4)] else [.round r]

/-- The forward micro-steps, in order (41_mix_network.md R160). -/
def forwardOps : List MicroOp := .inject 0 :: (List.range 72).flatMap forwardOpsOf

/-- The inverse micro-steps of round `r`: the round undone, and at the start of a group its injection undone (41_mix_network.md R160). -/
def inverseOpsOf (r : Nat) : List MicroOp :=
  if r % 4 = 0 then [.roundInv r, .eject (r / 4)] else [.roundInv r]

/-- The inverse micro-steps, in order (41_mix_network.md R160). -/
def inverseOps : List MicroOp := .eject 18 :: (List.range 72).reverse.flatMap inverseOpsOf

/-- One micro-step under the context `EK`, `ET` (41_mix_network.md R160). -/
def microStep (ek : Words5) (et : Words3) (v : Words4) : MicroOp → Words4
  | .inject s => inject ek et v s
  | .round r => roundFwd v r
  | .eject s => eject ek et v s
  | .roundInv r => roundInv v r

/-- Run micro-steps from a working block (41_mix_network.md R160). -/
def microRun (ek : Words5) (et : Words3) (ops : List MicroOp) (v : Words4) : Words4 :=
  ops.foldl (microStep ek et) v

end Sys2Proof
end

