-- ==== Sys2Proof/Machine/Notation.lean ====
section
/-! DEFINITION. The host notation and its pseudo-instructions (30_encoding.md R88), each as the accesses it expands to, and a host access by its address (20_memory.md R50). -/

namespace Sys2Proof.Machine

/-- A host access of `size` bytes at address `addr`, read (`wdata = none`) or write, as the port receives it; none outside the
window (20_memory.md R50, R57, R58). -/
def hostAccess (addr size : Nat) (wdata : Option Word) : Option HostEvent :=
  (windowOffset addr).map fun off =>
    match wdata with
    | none => .access (.read off size)
    | some w => .access (.write off size w)

/-- `sd OFF, V` (30_encoding.md R88). -/
def sd (off : BitVec 8) (v : Word) : HostEvent := .access (.write off 8 v)

/-- `ld OFF` (30_encoding.md R88). -/
def ld (off : BitVec 8) : HostEvent := .access (.read off 8)

/-- `LOADKEY` (30_encoding.md R88). -/
def pseudoLoadKey (k : Words4) : List HostEvent := [sd 0x10 k.w0, sd 0x18 k.w1, sd 0x20 k.w2, sd 0x28 k.w3]

/-- `LOADTWEAK` (30_encoding.md R88). -/
def pseudoLoadTweak (t : Words2) : List HostEvent := [sd 0x30 t.w0, sd 0x38 t.w1]

/-- `LOADBLOCK` (30_encoding.md R88). -/
def pseudoLoadBlock (p : Words4) : List HostEvent := [sd 0x40 p.w0, sd 0x48 p.w1, sd 0x50 p.w2, sd 0x58 p.w3]

/-- `CMD w`: any command word, legal or not (30_encoding.md R88). -/
def pseudoCmd (w : Word) : List HostEvent := [sd 0x00 w]

/-- `REKEY` (30_encoding.md R88). -/
def pseudoRekey : List HostEvent := pseudoCmd 0x0000000000002001

/-- `RETWEAK` (30_encoding.md R88). -/
def pseudoRetweak : List HostEvent := pseudoCmd 0x0000000000100002

/-- `INIT` (30_encoding.md R88). -/
def pseudoInit : List HostEvent := pseudoCmd 0x0000000000102003

/-- `ENCRYPT` (30_encoding.md R88). -/
def pseudoEncrypt : List HostEvent := pseudoCmd 0x0000000020000004

/-- `DECRYPT` (30_encoding.md R88). -/
def pseudoDecrypt : List HostEvent := pseudoCmd 0x0000000020000005

/-- `READOUT` (30_encoding.md R88). -/
def pseudoReadOut : List HostEvent := [ld 0x60, ld 0x68, ld 0x70, ld 0x78]

/-- `READSTATUS` (30_encoding.md R88). -/
def pseudoReadStatus : List HostEvent := [ld 0x08]

end Sys2Proof.Machine
end

