-- ==== Sys2Proof/Safety.lean ====
section
/-! DEFINITION. What claims about the machine are stated in: the invariants of 10_state.md, the accesses that do not fault, and the states a host can drive the engine to. -/

namespace Sys2Proof.Machine

/-- The key parity invariant (10_state.md R34): `EK[4] = C240 ⊕ EK[0] ⊕ EK[1] ⊕ EK[2] ⊕ EK[3]`. -/
abbrev Engine.KeyParity (s : Engine) : Prop :=
  s.ek.w4 = 0x1BD11BDAA9FC1A22#64 ^^^ s.ek.w0 ^^^ s.ek.w1 ^^^ s.ek.w2 ^^^ s.ek.w3

/-- The tweak parity invariant (10_state.md R34): `ET[2] = ET[0] ⊕ ET[1]`. -/
abbrev Engine.TweakParity (s : Engine) : Prop := s.et.w2 = s.et.w0 ^^^ s.et.w1

/-- `ERR = 1` exactly when `ERRCODE ≠ 0` (10_state.md R31). -/
abbrev Engine.ErrMatchesCode (s : Engine) : Prop := s.err = true ↔ errcodeBits s.errcode ≠ 0

/-- What holds in every state a host can drive the engine to: both parities and the agreement of the error fields. -/
abbrev Engine.Inv (s : Engine) : Prop := s.KeyParity ∧ s.TweakParity ∧ s.ErrMatchesCode

/-- Before a key (a tweak) has been accepted, its expansion is the reset one, and before both have, no block command has
succeeded, so the output block is the reset one (10_state.md R24, R29, R30, 42_block_commands.md R180). -/
abbrev Engine.UnloadedIsReset (s : Engine) : Prop :=
  (s.keyValid = false → s.ek = Engine.reset.ek) ∧
  (s.tweakValid = false → s.et = Engine.reset.et) ∧
  (s.keyValid = false ∨ s.tweakValid = false → s.dout = Engine.reset.dout)

/-- An access the port does not fault: 8 bytes, aligned, at a mapped offset (20_memory.md R55, R56). -/
abbrev Access.Safe : Access → Prop
  | .read off size => size = 8 ∧ off.toNat % 8 = 0 ∧ off.toNat < 0x80
  | .write off size _ => size = 8 ∧ off.toNat % 8 = 0 ∧ off.toNat < 0x80

/-- The next event, if any, is not a bad access. -/
abbrev State.SafeNext (s : State) : Prop :=
  match s.pending with
  | .access a :: _ => a.Safe
  | _ => True

/-- The state `n` steps after `s`, when none of them stops. -/
def State.Reaches (s : State) (n : Nat) (t : State) : Prop :=
  Host.Core.run Sys2Proof.core n s = .next t

/-- A state some host can drive the engine to: a number of steps after a reset engine to which any events are presented. -/
def State.Reachable (t : State) : Prop :=
  ∃ (s : State) (n : Nat), s.toEngine = Engine.reset ∧ s.Reaches n t

/-- The oldest event asserts reset, with an access under way or with none (70_reset_and_hazards.md R230, 60_exceptions.md R209). -/
abbrev State.ResetNext (s : State) : Prop :=
  match s.pending with
  | .reset :: _ => True
  | .resetDuring _ :: _ => True
  | _ => False

/-- The oldest event is the 8-byte write of `w` to `CMD` (30_encoding.md R80). -/
abbrev State.CommandNext (s : State) (w : Word) : Prop :=
  ∃ rest, s.pending = .access (.write 0x00#8 8 w) :: rest

/-- `OP` of a command word, as a number (30_encoding.md R81). -/
abbrev wordOp (w : Word) : Nat := w.toNat % 16

/-- `RSV0` of a command word, as a number (30_encoding.md R81). -/
abbrev wordRsv0 (w : Word) : Nat := w.toNat / 16 % 16

/-- `KLEN` of a command word, as a number (30_encoding.md R81). -/
abbrev wordKlen (w : Word) : Nat := w.toNat / 2 ^ 8 % 256

/-- `TLEN` of a command word, as a number (30_encoding.md R81). -/
abbrev wordTlen (w : Word) : Nat := w.toNat / 2 ^ 16 % 256

/-- `BLEN` of a command word, as a number (30_encoding.md R81). -/
abbrev wordBlen (w : Word) : Nat := w.toNat / 2 ^ 24 % 256

/-- `RSV1` of a command word, as a number (30_encoding.md R81). -/
abbrev wordRsv1 (w : Word) : Nat := w.toNat / 2 ^ 32

/-- An illegal command word (30_encoding.md R85). -/
abbrev IllegalWord (w : Word) : Prop := wordOp w = 0 ∨ 6 ≤ wordOp w ∨ wordRsv0 w ≠ 0 ∨ wordRsv1 w ≠ 0

end Sys2Proof.Machine
end

