-- ==== Sys2Proof/Certificates/Slice0/Obligations.lean ====
section
/-! DEFINITION. The statements for the provers, each from a numbered rule of spec/ or from the section its docstring names. -/

open Sys2Proof Sys2Proof.Machine

-- ==== Words, the mixing network, the transforms (00_scope.md section 4, 41_mix_network.md) ====

/-- 00_scope.md R10: addition and subtraction mod 2^64, exclusive or bit by bit, the rotations for 1 to 63, the rotation by 0,
a right rotation undoing a left one, and the counter `s` as the word of the same value. -/
def Obligations.WordOperationsAreModular : Prop :=
  (∀ a b : Word,
    (a + b).toNat = (a.toNat + b.toNat) % 2 ^ 64 ∧
    (a - b).toNat = (a.toNat + 2 ^ 64 - b.toNat) % 2 ^ 64 ∧
    ∀ i, (a ^^^ b).getLsbD i = (a.getLsbD i ^^ b.getLsbD i)) ∧
  (∀ (x : Word) (r : Nat), 1 ≤ r → r ≤ 63 →
    (rotl x r).toNat = ((x.toNat <<< r) ||| (x.toNat >>> (64 - r))) % 2 ^ 64 ∧
    (rotr x r).toNat = ((x.toNat >>> r) ||| (x.toNat <<< (64 - r))) % 2 ^ 64) ∧
  (∀ x : Word, rotl x 0 = x ∧ rotr x 0 = x) ∧
  (∀ (x : Word) (r : Nat), r ≤ 63 → rotr (rotl x r) r = x) ∧
  (∀ (et : Words3) (s : Nat), s ≤ 18 → (subkey ⟨0, 0, 0, 0, 0⟩ et s).w3.toNat = s)

/-- 41_mix_network.md R140: the two results of MIX, the second from the new first, and the rule's example. -/
def Obligations.MixAddsRotatesXors : Prop :=
  (∀ (x0 x1 : Word) (r : Nat), r ≤ 63 →
    (mix x0 x1 r).1.toNat = (x0.toNat + x1.toNat) % 2 ^ 64 ∧
    (mix x0 x1 r).2 = rotl x1 r ^^^ (mix x0 x1 r).1) ∧
  mix 1 2 14 = (0x3, 0x8003)

/-- 41_mix_network.md R141: MIX_INV, both inverse laws for every rotation 0 to 63, and the rule's example. -/
def Obligations.MixInvUndoesMix : Prop :=
  (∀ (y0 y1 : Word) (r : Nat), r ≤ 63 →
    (mixInv y0 y1 r).2 = rotr (y1 ^^^ y0) r ∧
    (mixInv y0 y1 r).1.toNat = (y0.toNat + 2 ^ 64 - (mixInv y0 y1 r).2.toNat) % 2 ^ 64) ∧
  (∀ (x0 x1 : Word) (r : Nat), r ≤ 63 → mixInv (mix x0 x1 r).1 (mix x0 x1 r).2 r = (x0, x1)) ∧
  (∀ (y0 y1 : Word) (r : Nat), r ≤ 63 → mix (mixInv y0 y1 r).1 (mixInv y0 y1 r).2 r = (y0, y1)) ∧
  mixInv 0x3 0x8003 14 = (1, 2)

/-- 41_mix_network.md R144: PERM swaps positions 1 and 3 and undoes itself. -/
def Obligations.PermSwapsOneAndThree : Prop :=
  (∀ b0 b1 b2 b3 : Word, perm ⟨b0, b1, b2, b3⟩ = ⟨b0, b3, b2, b1⟩) ∧ ∀ v : Words4, perm (perm v) = v

/-- 41_mix_network.md R142 and R143: the rotation pair of every round, every entry in 1 to 63, a round as two MIX and the
permutation, and R143's example. The inverse direction's use of the same table is `RoundInvUndoesRound`'s and this statement's last clause. -/
def Obligations.RoundUsesRotationTable : Prop :=
  (∀ r : Nat, some (rotPair r) =
    [(14, 16), (52, 57), (23, 40), (5, 37), (25, 33), (46, 12), (58, 22), (32, 32)][r % 8]?) ∧
  (∀ r : Nat, 1 ≤ (rotPair r).1 ∧ (rotPair r).1 ≤ 63 ∧ 1 ≤ (rotPair r).2 ∧ (rotPair r).2 ≤ 63) ∧
  (∀ (v : Words4) (r : Nat), roundFwd v r =
    perm ⟨(mix v.w0 v.w1 (rotPair r).1).1, (mix v.w0 v.w1 (rotPair r).1).2,
          (mix v.w2 v.w3 (rotPair r).2).1, (mix v.w2 v.w3 (rotPair r).2).2⟩) ∧
  roundFwd ⟨0, 0, 0, 0x1BD11BDAA9FC1A23⟩ 4 = ⟨0, 0x48292F9C9E5E2D96, 0x1BD11BDAA9FC1A23, 0⟩ ∧
  (∀ (v : Words4) (r : Nat), roundInv v r =
    ⟨(mixInv v.w0 v.w3 (rotPair r).1).1, (mixInv v.w0 v.w3 (rotPair r).1).2,
     (mixInv v.w2 v.w1 (rotPair r).2).1, (mixInv v.w2 v.w1 (rotPair r).2).2⟩)

/-- 41_mix_network.md R145: ROUND_INV takes the permutation back first, then both pairs through MIX_INV with the same table entry,
and is the inverse of ROUND on both sides. -/
def Obligations.RoundInvUndoesRound : Prop :=
  ∀ (v : Words4) (r : Nat),
    roundInv v r =
      ⟨(mixInv (perm v).w0 (perm v).w1 (rotPair r).1).1, (mixInv (perm v).w0 (perm v).w1 (rotPair r).1).2,
       (mixInv (perm v).w2 (perm v).w3 (rotPair r).2).1, (mixInv (perm v).w2 (perm v).w3 (rotPair r).2).2⟩ ∧
    roundInv (roundFwd v r) r = v ∧ roundFwd (roundInv v r) r = v

/-- 41_mix_network.md R155: before the permutation each lane of a round depends on its own pair of words alone, in both directions. -/
def Obligations.RoundLanesAreIndependent : Prop :=
  ∀ (v v' : Words4) (r : Nat),
    (v.w0 = v'.w0 → v.w1 = v'.w1 →
      (perm (roundFwd v r)).w0 = (perm (roundFwd v' r)).w0 ∧ (perm (roundFwd v r)).w1 = (perm (roundFwd v' r)).w1) ∧
    (v.w2 = v'.w2 → v.w3 = v'.w3 →
      (perm (roundFwd v r)).w2 = (perm (roundFwd v' r)).w2 ∧ (perm (roundFwd v r)).w3 = (perm (roundFwd v' r)).w3) ∧
    ((perm v).w0 = (perm v').w0 → (perm v).w1 = (perm v').w1 →
      (roundInv v r).w0 = (roundInv v' r).w0 ∧ (roundInv v r).w1 = (roundInv v' r).w1) ∧
    ((perm v).w2 = (perm v').w2 → (perm v).w3 = (perm v').w3 →
      (roundInv v r).w2 = (roundInv v' r).w2 ∧ (roundInv v r).w3 = (roundInv v' r).w3)

/-- 41_mix_network.md R146 and R153: every subkey, spelled out row by row as the table gives it. -/
def Obligations.SubkeyTableSpelledOut : Prop :=
  ∀ (ek : Words5) (et : Words3), (List.range 19).map (subkey ek et) =
    [⟨ek.w0, ek.w1 + et.w0, ek.w2 + et.w1, ek.w3 + 0⟩,
     ⟨ek.w1, ek.w2 + et.w1, ek.w3 + et.w2, ek.w4 + 1⟩,
     ⟨ek.w2, ek.w3 + et.w2, ek.w4 + et.w0, ek.w0 + 2⟩,
     ⟨ek.w3, ek.w4 + et.w0, ek.w0 + et.w1, ek.w1 + 3⟩,
     ⟨ek.w4, ek.w0 + et.w1, ek.w1 + et.w2, ek.w2 + 4⟩,
     ⟨ek.w0, ek.w1 + et.w2, ek.w2 + et.w0, ek.w3 + 5⟩,
     ⟨ek.w1, ek.w2 + et.w0, ek.w3 + et.w1, ek.w4 + 6⟩,
     ⟨ek.w2, ek.w3 + et.w1, ek.w4 + et.w2, ek.w0 + 7⟩,
     ⟨ek.w3, ek.w4 + et.w2, ek.w0 + et.w0, ek.w1 + 8⟩,
     ⟨ek.w4, ek.w0 + et.w0, ek.w1 + et.w1, ek.w2 + 9⟩,
     ⟨ek.w0, ek.w1 + et.w1, ek.w2 + et.w2, ek.w3 + 10⟩,
     ⟨ek.w1, ek.w2 + et.w2, ek.w3 + et.w0, ek.w4 + 11⟩,
     ⟨ek.w2, ek.w3 + et.w0, ek.w4 + et.w1, ek.w0 + 12⟩,
     ⟨ek.w3, ek.w4 + et.w1, ek.w0 + et.w2, ek.w1 + 13⟩,
     ⟨ek.w4, ek.w0 + et.w2, ek.w1 + et.w0, ek.w2 + 14⟩,
     ⟨ek.w0, ek.w1 + et.w0, ek.w2 + et.w1, ek.w3 + 15⟩,
     ⟨ek.w1, ek.w2 + et.w1, ek.w3 + et.w2, ek.w4 + 16⟩,
     ⟨ek.w2, ek.w3 + et.w2, ek.w4 + et.w0, ek.w0 + 17⟩,
     ⟨ek.w3, ek.w4 + et.w0, ek.w0 + et.w1, ek.w1 + 18⟩]

/-- 41_mix_network.md R147: INJECT and EJECT are word-wise addition and subtraction of the subkey, and EJECT undoes INJECT. -/
def Obligations.EjectUndoesInject : Prop :=
  ∀ (ek : Words5) (et : Words3) (v : Words4) (s : Nat),
    inject ek et v s = ⟨v.w0 + (subkey ek et s).w0, v.w1 + (subkey ek et s).w1,
                        v.w2 + (subkey ek et s).w2, v.w3 + (subkey ek et s).w3⟩ ∧
    eject ek et v s = ⟨v.w0 - (subkey ek et s).w0, v.w1 - (subkey ek et s).w1,
                       v.w2 - (subkey ek et s).w2, v.w3 - (subkey ek et s).w3⟩ ∧
    eject ek et (inject ek et v s) s = v

/-- 41_mix_network.md R148: the forward micro-steps are, for s = 0 to 17, injection s and then the four rounds of group s,
and injection 18 last; so no injection happens at any other point; and ENC is the run of exactly those micro-steps. -/
def Obligations.InjectionScheduleByGroups : Prop :=
  (∀ (ek : Words5) (et : Words3) (v : Words4), enc ek et v = microRun ek et forwardOps v) ∧
  forwardOps = (List.range 18).flatMap (fun s =>
      [.inject s, .round (4 * s), .round (4 * s + 1), .round (4 * s + 2), .round (4 * s + 3)]) ++ [.inject 18]

/-- 41_mix_network.md R160: running the micro-steps of either direction gives ENC and DEC, for every context and block; each direction
has 91 micro-steps, 72 rounds and 19 injections. -/
def Obligations.MicroStepsComputeTransforms : Prop :=
  (∀ (ek : Words5) (et : Words3) (v : Words4), microRun ek et forwardOps v = enc ek et v) ∧
  (∀ (ek : Words5) (et : Words3) (v : Words4), microRun ek et inverseOps v = dec ek et v) ∧
  forwardOps.length = 91 ∧ inverseOps.length = 91 ∧
  forwardOps.filter (fun o => match o with | .round _ => true | _ => false) = (List.range 72).map .round ∧
  inverseOps.filter (fun o => match o with | .roundInv _ => true | _ => false) = (List.range 72).reverse.map .roundInv

/-- 41_mix_network.md R151: both inverse laws, for any expanded key and tweak, parity or not. -/
def Obligations.DecryptionInvertsEncryption : Prop :=
  ∀ (ek : Words5) (et : Words3),
    (∀ p : Words4, dec ek et (enc ek et p) = p) ∧ (∀ c : Words4, enc ek et (dec ek et c) = c)

/-- 41_mix_network.md R152: under a fixed context ENC is a bijection on blocks. -/
def Obligations.EncryptionIsABijection : Prop :=
  ∀ (ek : Words5) (et : Words3), Function.Bijective (enc ek et) ∧ ∀ p q : Words4, p ≠ q → enc ek et p ≠ enc ek et q

-- ==== The schedules (40_schedules.md section 1) ====

/-- 40_schedules.md R110, R111 and R112: the constant `C240`, the expanded key as the raw key and its parity word over `C240`, and the
expanded tweak as the raw tweak and the exclusive or of its words. -/
def Obligations.SchedulesAddParityWords : Prop :=
  c240.toNat = 0x1BD11BDAA9FC1A22 ∧
  (∀ k0 k1 k2 k3 : Word, keySchedule ⟨k0, k1, k2, k3⟩ =
    ⟨k0, k1, k2, k3, 0x1BD11BDAA9FC1A22#64 ^^^ k0 ^^^ k1 ^^^ k2 ^^^ k3⟩) ∧
  (∀ t0 t1 : Word, tweakSchedule ⟨t0, t1⟩ = ⟨t0, t1, t0 ^^^ t1⟩)

-- ==== Encoding (30_encoding.md) ====

/-- 30_encoding.md section 1: no bit of a command is dropped; decoding the word of a well-formed command gives the command,
with every value of all three length fields. -/
def Obligations.DecodeOfEncodedCommand : Prop :=
  ∀ i : Instr, i.wf = true → decodeWord (encodeWord i) = .ok i

/-- 30_encoding.md R81: each legal word has one meaning. A decoded command is well-formed and encodes back to its word, and its fields
are the bits the format gives them, with both reserved fields 0. -/
def Obligations.EncodeOfDecodedWord : Prop :=
  ∀ (w : Word) (i : Instr), decodeWord w = .ok i →
    i.wf = true ∧ encodeWord i = w ∧
    i.op.toNat = w.toNat % 16 ∧ w.toNat / 16 % 16 = 0 ∧ i.klen = w.toNat / 2 ^ 8 % 256 ∧
    i.tlen = w.toNat / 2 ^ 16 % 256 ∧ i.blen = w.toNat / 2 ^ 24 % 256 ∧ w.toNat / 2 ^ 32 = 0

/-- 20_memory.md section 3 and 30_encoding.md section 1: a command stored as little-endian bytes decodes to itself and leaves the bytes
after it, and fewer than eight bytes are no command. -/
def Obligations.DecodeOfByteString : Prop :=
  (∀ (i : Instr) (rest : List Byte), i.wf = true → decode (encode i ++ rest) = .ok (i, rest)) ∧
  (∀ bs : List Byte, bs.length < 8 → decode bs = .error .truncated)

/-- 30_encoding.md R86: a word decodes to the command of opcode `op` exactly when it matches `op` under the mask, whatever its length
fields, and the five canonical words are those of the five commands with the required lengths. -/
def Obligations.CanonicalWordsAndMask : Prop :=
  (∀ (w : Word) (op : BitVec 4), (∃ i, decodeWord w = .ok i ∧ i.op = op) ↔
    (w &&& 0xFFFFFFFF000000FF#64 = op.setWidth 64 ∧ 1 ≤ op.toNat ∧ op.toNat ≤ 5)) ∧
  encodeWord (.rekey 32 0 0) = 0x0000000000002001 ∧
  encodeWord (.retweak 0 16 0) = 0x0000000000100002 ∧
  encodeWord (.init 32 16 0) = 0x0000000000102003 ∧
  encodeWord (.encrypt 0 0 32) = 0x0000000020000004 ∧
  encodeWord (.decrypt 0 0 32) = 0x0000000020000005

/-- 30_encoding.md section 1, one word of each command written out bit by bit, with other lengths than the required ones. -/
def Obligations.WrittenOutWordsDecode : Prop :=
  decodeWord 0b0000000000000000000000000000000010101010010101010010000000000001#64 = .ok (.rekey 32 0x55 0xAA) ∧
  decodeWord 0b0000000000000000000000000000000000000000000011110000000000000010#64 = .ok (.retweak 0 15 0) ∧
  decodeWord 0b0000000000000000000000000000000011111111000100000010000000000011#64 = .ok (.init 32 16 255) ∧
  decodeWord 0b0000000000000000000000000000000000011111000000000000000000000100#64 = .ok (.encrypt 0 0 31) ∧
  decodeWord 0b0000000000000000000000000000000000100000000000001000000000000101#64 = .ok (.decrypt 128 0 32)

/-- 30_encoding.md sections 1 and 2: the word of every command carries its opcode, 1 to 5, and no reserved bit. -/
def Obligations.EveryCommandWordIsWellFormed : Prop :=
  ∀ i : Instr, Sys2Proof.Laws.EncodedForm.Statement i

-- ==== Decoding and dispatch of a command word (30_encoding.md R80 to R85, 60_exceptions.md) ====

/-- 30_encoding.md R85: an illegal word fails with InvalidCommand and changes nothing but ERR and ERRCODE; every other word is one of
the five commands, and runs it. -/
def Obligations.IllegalWordsAreInvalidCommand : Prop :=
  ∀ (w : Word) (s : State),
    (IllegalWord w → command w s = .next { s with err := true, errcode := some .invalidCommand }) ∧
    (¬ IllegalWord w → ∃ i, decodeWord w = .ok i ∧ i.op.toNat = wordOp w ∧ command w s = exec i s)

/-- 30_encoding.md R83: two words that agree on the opcode, the reserved bits and the length fields their command consumes have the same
outcome in every state. -/
def Obligations.UnconsumedLengthsAreIgnored : Prop :=
  ∀ (w w' : Word) (s : State),
    wordOp w = wordOp w' → wordRsv0 w = wordRsv0 w' → wordRsv1 w = wordRsv1 w' →
    (wordOp w = 1 ∨ wordOp w = 3 → wordKlen w = wordKlen w') →
    (wordOp w = 2 ∨ wordOp w = 3 → wordTlen w = wordTlen w') →
    (wordOp w = 4 ∨ wordOp w = 5 → wordBlen w = wordBlen w') →
    command w s = command w' s

/-- 60_exceptions.md R201 and R202: every command word ends in a next state whose ERRCODE is that of the first check that fails, in the
fixed order, or OK when none fails. -/
def Obligations.FirstFailingCheckIsReported : Prop :=
  ∀ (w : Word) (s : State), ∃ t, command w s = .next t ∧ t.errcode =
    (if wordRsv0 w ≠ 0 ∨ wordRsv1 w ≠ 0 then some .invalidCommand
     else if wordOp w = 1 then (if wordKlen w ≠ 32 then some .invalidKeyLength else none)
     else if wordOp w = 2 then (if wordTlen w ≠ 16 then some .invalidTweakLength else none)
     else if wordOp w = 3 then
       (if wordKlen w ≠ 32 then some .invalidKeyLength else if wordTlen w ≠ 16 then some .invalidTweakLength else none)
     else if wordOp w = 4 ∨ wordOp w = 5 then
       (if s.keyValid = false ∨ s.tweakValid = false then some .contextNotInitialised
        else if wordBlen w ≠ 32 then some .invalidBlockLength else none)
     else some .invalidCommand)

/-- 60_exceptions.md R200: the six codes, and no value 6 to 15 in ERRCODE, whatever the state. -/
def Obligations.ErrorCodesAreZeroToFive : Prop :=
  errcodeBits none = 0 ∧ errcodeBits (some .invalidKeyLength) = 1 ∧ errcodeBits (some .invalidTweakLength) = 2 ∧
  errcodeBits (some .invalidBlockLength) = 3 ∧ errcodeBits (some .invalidCommand) = 4 ∧
  errcodeBits (some .contextNotInitialised) = 5 ∧ ∀ s : State, (errcodeBits s.errcode).toNat ≤ 5

/-- 60_exceptions.md R205: a failed command writes ERR and ERRCODE and nothing else, so every other register, and every byte of the window
outside STATUS, is as before. -/
def Obligations.FailedCommandWritesOnlyStatus : Prop :=
  ∀ (w : Word) (s t : State), command w s = .next t → t.err = true →
    (∃ e, t = { s with err := true, errcode := some e }) ∧
    ∀ off : BitVec 8, off.toNat / 8 ≠ 1 → t.windowByte off = s.windowByte off

/-- 10_state.md R31: every command ends with ERR and ERRCODE 0 and 0, or 1 and a code 1 to 5; an event that is no well-formed CMD write and
no reset leaves both; and ERR is 1 exactly when ERRCODE is not 0 in every state a host can reach (what a host presents is a list of
events in the model: log entries 1 and 6). -/
def Obligations.ErrorFieldsDescribeLastCommand : Prop :=
  (∀ (w : Word) (s : State), ∃ t, command w s = .next t ∧
    ((t.err = false ∧ errcodeBits t.errcode = 0) ∨
     (t.err = true ∧ 1 ≤ (errcodeBits t.errcode).toNat ∧ (errcodeBits t.errcode).toNat ≤ 5))) ∧
  (∀ s t : State, step s = .next t → ¬ s.ResetNext → (∀ w, ¬ s.CommandNext w) → t.err = s.err ∧ t.errcode = s.errcode) ∧
  (∀ t : State, t.Reachable → (t.err = true ↔ errcodeBits t.errcode ≠ 0))

-- ==== The five commands (40_schedules.md, 42_block_commands.md) ====

/-- 40_schedules.md R114: REKEY with KLEN 32 completes with the new expanded key, KEY_VALID and a clear error; with any other KLEN it writes
the error alone; a reserved bit makes its word illegal; the parity corner cases; the rule's example and canonical word. -/
def Obligations.RekeyReplacesExpandedKey : Prop :=
  (∀ (s : State) (tlen blen : Nat), exec (.rekey 32 tlen blen) s = .next
    { s with
      ek := ⟨s.keyin.w0, s.keyin.w1, s.keyin.w2, s.keyin.w3,
             0x1BD11BDAA9FC1A22#64 ^^^ s.keyin.w0 ^^^ s.keyin.w1 ^^^ s.keyin.w2 ^^^ s.keyin.w3⟩,
      keyValid := true, err := false, errcode := none }) ∧
  (∀ (s : State) (klen tlen blen : Nat), klen ≠ 32 →
    exec (.rekey klen tlen blen) s = .next { s with err := true, errcode := some .invalidKeyLength }) ∧
  (∀ (w : Word) (s : State), wordOp w = 1 → wordRsv0 w ≠ 0 ∨ wordRsv1 w ≠ 0 →
    command w s = .next { s with err := true, errcode := some .invalidCommand }) ∧
  (∀ k : Words4, k.w0 ^^^ k.w1 ^^^ k.w2 ^^^ k.w3 = 0x1BD11BDAA9FC1A22#64 → (keySchedule k).w4 = 0) ∧
  (∀ k : Words4, k.w0 ^^^ k.w1 ^^^ k.w2 ^^^ k.w3 = 0#64 → (keySchedule k).w4 = 0x1BD11BDAA9FC1A22#64) ∧
  keySchedule ⟨1, 2, 3, 4⟩ = ⟨1, 2, 3, 4, 0x1BD11BDAA9FC1A26⟩ ∧
  decodeWord 0x0000000000002001 = .ok (.rekey 32 0 0)

/-- 40_schedules.md R115: RETWEAK with TLEN 16 completes with the new expanded tweak, TWEAK_VALID and a clear error; with any other TLEN it
writes the error alone; a reserved bit makes its word illegal; the corner cases; the rule's example and canonical word. -/
def Obligations.RetweakReplacesExpandedTweak : Prop :=
  (∀ (s : State) (klen blen : Nat), exec (.retweak klen 16 blen) s = .next
    { s with
      et := ⟨s.tweakin.w0, s.tweakin.w1, s.tweakin.w0 ^^^ s.tweakin.w1⟩,
      tweakValid := true, err := false, errcode := none }) ∧
  (∀ (s : State) (klen tlen blen : Nat), tlen ≠ 16 →
    exec (.retweak klen tlen blen) s = .next { s with err := true, errcode := some .invalidTweakLength }) ∧
  (∀ (w : Word) (s : State), wordOp w = 2 → wordRsv0 w ≠ 0 ∨ wordRsv1 w ≠ 0 →
    command w s = .next { s with err := true, errcode := some .invalidCommand }) ∧
  (∀ t : Word, (tweakSchedule ⟨t, t⟩).w2 = 0) ∧
  tweakSchedule ⟨0, 0⟩ = State.reset.et ∧ State.reset.tweakValid = false ∧
  tweakSchedule ⟨0x0706050403020100, 0x0F0E0D0C0B0A0908⟩ = ⟨0x0706050403020100, 0x0F0E0D0C0B0A0908, 0x0808080808080808⟩ ∧
  decodeWord 0x0000000000100002 = .ok (.retweak 0 16 0)

/-- 40_schedules.md R116: INIT with KLEN 32 and TLEN 16 completes with both expansions and both flags; a wrong key length is reported
whatever TLEN, a wrong tweak length only with KLEN 32, and either writes the error alone; when both lengths are right it is REKEY then RETWEAK;
when only TLEN is wrong, REKEY then RETWEAK leaves the new EK where INIT does not; a reserved bit makes its word illegal; the example and canonical word. -/
def Obligations.InitLoadsKeyAndTweakAllOrNothing : Prop :=
  (∀ (s : State) (blen : Nat), exec (.init 32 16 blen) s = .next
    { s with
      ek := ⟨s.keyin.w0, s.keyin.w1, s.keyin.w2, s.keyin.w3,
             0x1BD11BDAA9FC1A22#64 ^^^ s.keyin.w0 ^^^ s.keyin.w1 ^^^ s.keyin.w2 ^^^ s.keyin.w3⟩,
      et := ⟨s.tweakin.w0, s.tweakin.w1, s.tweakin.w0 ^^^ s.tweakin.w1⟩,
      keyValid := true, tweakValid := true, err := false, errcode := none }) ∧
  (∀ (s : State) (klen tlen blen : Nat), klen ≠ 32 →
    exec (.init klen tlen blen) s = .next { s with err := true, errcode := some .invalidKeyLength }) ∧
  (∀ (s : State) (tlen blen : Nat), tlen ≠ 16 →
    exec (.init 32 tlen blen) s = .next { s with err := true, errcode := some .invalidTweakLength }) ∧
  (∀ (s : State) (b b1 b2 t1 k2 : Nat), ∃ u v, exec (.rekey 32 t1 b1) s = .next u ∧ exec (.retweak k2 16 b2) u = .next v ∧
    exec (.init 32 16 b) s = .next v) ∧
  (∀ (s : State) (tlen b b1 b2 t1 k2 : Nat), tlen ≠ 16 → ∃ u v w,
    exec (.rekey 32 t1 b1) s = .next u ∧ exec (.retweak k2 tlen b2) u = .next v ∧ v.ek = keySchedule s.keyin ∧
    exec (.init 32 tlen b) s = .next w ∧ w.ek = s.ek) ∧
  (∀ (w : Word) (s : State), wordOp w = 3 → wordRsv0 w ≠ 0 ∨ wordRsv1 w ≠ 0 →
    command w s = .next { s with err := true, errcode := some .invalidCommand }) ∧
  (∃ t, exec (.init 32 16 0) State.reset = .next t ∧ t.ek = ⟨0, 0, 0, 0, 0x1BD11BDAA9FC1A22⟩ ∧ t.et = ⟨0, 0, 0⟩ ∧
    t.status = 0x3) ∧
  decodeWord 0x0000000000102003 = .ok (.init 32 16 0)

/-- 42_block_commands.md R181 with R180: ENCRYPT with both valid flags and BLEN 32 completes with DOUT the forward transform of DIN and a clear
error; without the context it fails with code 5 whatever BLEN; with the context and another BLEN, with code 3; a reserved bit makes
its word illegal; the example and canonical word. -/
def Obligations.EncryptWritesForwardTransform : Prop :=
  (∀ (s : State) (klen tlen : Nat), s.keyValid = true → s.tweakValid = true →
    exec (.encrypt klen tlen 32) s = .next { s with dout := enc s.ek s.et s.din, err := false, errcode := none }) ∧
  (∀ (s : State) (klen tlen blen : Nat), s.keyValid = false ∨ s.tweakValid = false →
    exec (.encrypt klen tlen blen) s = .next { s with err := true, errcode := some .contextNotInitialised }) ∧
  (∀ (s : State) (klen tlen blen : Nat), s.keyValid = true → s.tweakValid = true → blen ≠ 32 →
    exec (.encrypt klen tlen blen) s = .next { s with err := true, errcode := some .invalidBlockLength }) ∧
  (∀ (w : Word) (s : State), wordOp w = 4 → wordRsv0 w ≠ 0 ∨ wordRsv1 w ≠ 0 →
    command w s = .next { s with err := true, errcode := some .invalidCommand }) ∧
  enc ⟨0, 0, 0, 0, 0x1BD11BDAA9FC1A22⟩ ⟨0, 0, 0⟩ ⟨0, 0, 0, 0⟩ =
    ⟨0x94EEEA8B1F2ADA84, 0xADF103313EAE6670, 0x952419A1F4B16D53, 0xD83F13E63C9F6B11⟩ ∧
  decodeWord 0x0000000020000004 = .ok (.encrypt 0 0 32)

/-- 42_block_commands.md R182 with R180: DECRYPT with both valid flags and BLEN 32 completes with DOUT the inverse transform of DIN, for every
block and every context, and a clear error; its failures are those of ENCRYPT in the same order; the example and canonical word. -/
def Obligations.DecryptWritesInverseTransform : Prop :=
  (∀ (s : State) (klen tlen : Nat), s.keyValid = true → s.tweakValid = true →
    exec (.decrypt klen tlen 32) s = .next { s with dout := dec s.ek s.et s.din, err := false, errcode := none }) ∧
  (∀ (s : State) (klen tlen blen : Nat), s.keyValid = false ∨ s.tweakValid = false →
    exec (.decrypt klen tlen blen) s = .next { s with err := true, errcode := some .contextNotInitialised }) ∧
  (∀ (s : State) (klen tlen blen : Nat), s.keyValid = true → s.tweakValid = true → blen ≠ 32 →
    exec (.decrypt klen tlen blen) s = .next { s with err := true, errcode := some .invalidBlockLength }) ∧
  (∀ (w : Word) (s : State), wordOp w = 5 → wordRsv0 w ≠ 0 ∨ wordRsv1 w ≠ 0 →
    command w s = .next { s with err := true, errcode := some .invalidCommand }) ∧
  dec ⟨0, 0, 0, 0, 0x1BD11BDAA9FC1A22⟩ ⟨0, 0, 0⟩
    ⟨0x94EEEA8B1F2ADA84, 0xADF103313EAE6670, 0x952419A1F4B16D53, 0xD83F13E63C9F6B11⟩ = ⟨0, 0, 0, 0⟩ ∧
  decodeWord 0x0000000020000005 = .ok (.decrypt 0 0 32)

/-- 40_schedules.md sections 2 to 5: the frame of REKEY, RETWEAK and INIT. Whatever the lengths, the operand registers, DOUT and the host's
side are as before, REKEY leaves the tweak's context and RETWEAK the key's, and every byte of the window outside STATUS reads as before. -/
def Obligations.ContextCommandsFrame : Prop :=
  ∀ (i : Instr) (s t : State), i.op = 0x1#4 ∨ i.op = 0x2#4 ∨ i.op = 0x3#4 → exec i s = .next t →
    t.keyin = s.keyin ∧ t.tweakin = s.tweakin ∧ t.din = s.din ∧ t.dout = s.dout ∧
    t.pending = s.pending ∧ t.answer = s.answer ∧ t.freeIndex = s.freeIndex ∧
    (i.op = 0x1#4 → t.et = s.et ∧ t.tweakValid = s.tweakValid) ∧
    (i.op = 0x2#4 → t.ek = s.ek ∧ t.keyValid = s.keyValid) ∧
    ∀ off : BitVec 8, off.toNat / 8 ≠ 1 → t.windowByte off = s.windowByte off

/-- 10_state.md R35: the frame of ENCRYPT and DECRYPT. EK, ET, KEYIN, TWEAKIN, DIN and both valid flags are as before; only DOUT and the
error fields can differ; every byte of the window outside STATUS and DOUT reads as before. -/
def Obligations.BlockCommandsFrame : Prop :=
  ∀ (i : Instr) (s t : State), i.op = 0x4#4 ∨ i.op = 0x5#4 → exec i s = .next t →
    t.ek = s.ek ∧ t.et = s.et ∧ t.keyin = s.keyin ∧ t.tweakin = s.tweakin ∧ t.din = s.din ∧
    t.keyValid = s.keyValid ∧ t.tweakValid = s.tweakValid ∧
    t = { s with dout := t.dout, err := t.err, errcode := t.errcode } ∧
    ∀ off : BitVec 8, off.toNat / 8 ≠ 1 → ¬ (0x60 ≤ off.toNat ∧ off.toNat < 0x80) → t.windowByte off = s.windowByte off

/-- 42_block_commands.md R184: after a successful block command DOUT depends on DIN, EK and ET alone, whatever else two states differ in. -/
def Obligations.BlockResultDependsOnContextAndInput : Prop :=
  ∀ (i : Instr) (s s' t t' : State), i.op = 0x4#4 ∨ i.op = 0x5#4 →
    s.din = s'.din → s.ek = s'.ek → s.et = s'.et →
    exec i s = .next t → exec i s' = .next t' → t.err = false → t'.err = false → t.dout = t'.dout

/-- 42_block_commands.md R183: from any state INIT, ENCRYPT of P, and DECRYPT of the result give P back; and DECRYPT first, ENCRYPT second.
The writes of DIN are updates of that register. -/
def Obligations.CommandLevelRoundTrip : Prop :=
  ∀ (s : State) (p : Words4) (b k1 t1 k2 t2 : Nat),
    (∃ s1 s2 s3, exec (.init 32 16 b) s = .next s1 ∧ exec (.encrypt k1 t1 32) { s1 with din := p } = .next s2 ∧
      exec (.decrypt k2 t2 32) { s2 with din := s2.dout } = .next s3 ∧ s3.dout = p) ∧
    (∃ s1 s2 s3, exec (.init 32 16 b) s = .next s1 ∧ exec (.decrypt k1 t1 32) { s1 with din := p } = .next s2 ∧
      exec (.encrypt k2 t2 32) { s2 with din := s2.dout } = .next s3 ∧ s3.dout = p)

/-- 70_reset_and_hazards.md section 2: with the operands written, INIT, or REKEY and RETWEAK in either order, leaves the same engine and
STATUS 0x3. -/
def Obligations.BootOrdersAgree : Prop :=
  ∀ (s : State) (b b1 b2 t1 k2 : Nat), ∃ u v v' w w',
    exec (.init 32 16 b) s = .next u ∧
    exec (.rekey 32 t1 b1) s = .next v ∧ exec (.retweak k2 16 b2) v = .next w ∧
    exec (.retweak k2 16 b2) s = .next v' ∧ exec (.rekey 32 t1 b1) v' = .next w' ∧
    u = w ∧ u = w' ∧ u.status = 0x3

-- ==== Who writes what (10_state.md) ====

/-- 10_state.md section 3 and 40_schedules.md section 5: in one step EK and KEY_VALID stay, or a successful REKEY or INIT replaced EK by the
expansion of KEYIN and set KEY_VALID, or reset gave both their reset values. -/
def Obligations.OnlyRekeyInitResetWriteKeyContext : Prop :=
  ∀ s t : State, step s = .next t →
    (t.ek = s.ek ∧ t.keyValid = s.keyValid) ∨
    (∃ w, s.CommandNext w ∧ (wordOp w = 1 ∨ wordOp w = 3) ∧ t.err = false ∧ t.ek = keySchedule s.keyin ∧ t.keyValid = true) ∨
    (s.ResetNext ∧ t.ek = ⟨0, 0, 0, 0, 0x1BD11BDAA9FC1A22⟩ ∧ t.keyValid = false)

/-- 10_state.md section 3 and 40_schedules.md section 5: in one step ET and TWEAK_VALID stay, or a successful RETWEAK or INIT replaced ET by
the expansion of TWEAKIN and set TWEAK_VALID, or reset gave both their reset values. -/
def Obligations.OnlyRetweakInitResetWriteTweakContext : Prop :=
  ∀ s t : State, step s = .next t →
    (t.et = s.et ∧ t.tweakValid = s.tweakValid) ∨
    (∃ w, s.CommandNext w ∧ (wordOp w = 2 ∨ wordOp w = 3) ∧ t.err = false ∧ t.et = tweakSchedule s.tweakin ∧
      t.tweakValid = true) ∨
    (s.ResetNext ∧ t.et = ⟨0, 0, 0⟩ ∧ t.tweakValid = false)

/-- 10_state.md section 2: in one step DOUT stays, or a successful ENCRYPT or DECRYPT wrote its result, or reset cleared it. -/
def Obligations.OnlyBlockCommandsAndResetWriteDout : Prop :=
  ∀ s t : State, step s = .next t →
    t.dout = s.dout ∨
    (∃ w, s.CommandNext w ∧ s.keyValid = true ∧ s.tweakValid = true ∧ t.err = false ∧
      ((wordOp w = 4 ∧ t.dout = enc s.ek s.et s.din) ∨ (wordOp w = 5 ∧ t.dout = dec s.ek s.et s.din))) ∨
    (s.ResetNext ∧ t.dout = ⟨0, 0, 0, 0⟩)

/-- 10_state.md section 2: in one step KEYIN, TWEAKIN and DIN stay, or the host wrote one word of one of them, or reset cleared them; so no
command writes an operand register. -/
def Obligations.OnlyHostAndResetWriteOperands : Prop :=
  ∀ s t : State, step s = .next t →
    (t.keyin = s.keyin ∧ t.tweakin = s.tweakin ∧ t.din = s.din) ∨
    (∃ off w rest, s.pending = .access (.write off 8 w) :: rest ∧
      ((∃ i, regAt off = some (.keyin i) ∧ t.keyin = s.keyin.set i w ∧ t.tweakin = s.tweakin ∧ t.din = s.din) ∨
       (∃ i, regAt off = some (.tweakin i) ∧ t.keyin = s.keyin ∧ t.tweakin = s.tweakin.set i w ∧ t.din = s.din) ∨
       (∃ i, regAt off = some (.din i) ∧ t.keyin = s.keyin ∧ t.tweakin = s.tweakin ∧ t.din = s.din.set i w))) ∨
    (s.ResetNext ∧ t.keyin = ⟨0, 0, 0, 0⟩ ∧ t.tweakin = ⟨0, 0⟩ ∧ t.din = ⟨0, 0, 0, 0⟩)

-- ==== The register window (10_state.md section 4, 20_memory.md) ====

/-- 10_state.md section 4: STATUS bit by bit, in every state; it is read at offset 8, and a host write of it changes no register. -/
def Obligations.StatusRegisterLayout : Prop :=
  ∀ s : State,
    s.status.getLsbD 0 = s.keyValid ∧ s.status.getLsbD 1 = s.tweakValid ∧ s.status.getLsbD 2 = s.err ∧
    s.status.getLsbD 3 = false ∧ s.status.extractLsb' 4 4 = errcodeBits s.errcode ∧
    (∀ i, 8 ≤ i → s.status.getLsbD i = false) ∧
    portRead 0x08 8 s = .next (s.reply (.readData s.status)) ∧
    ∀ w : Word, portWrite 0x08 8 w s = .next (s.reply .writeDone)

/-- 20_memory.md R57: what a host read of any size at any offset returns; a read changes no register. -/
def Obligations.HostReadByOffset : Prop :=
  ∀ (off : BitVec 8) (size : Nat) (s : State), portRead off size s =
    (if size ≠ 8 ∨ off.toNat % 8 ≠ 0 then .fault (.accessFault (Config.engineBase + off.toNat))
     else if off.toNat = 0x00 then .next (s.reply (.readData 0))
     else if off.toNat = 0x08 then .next (s.reply (.readData ((errcodeBits s.errcode ++ 0#1 ++ BitVec.ofBool s.err ++
       BitVec.ofBool s.tweakValid ++ BitVec.ofBool s.keyValid).setWidth 64)))
     else if off.toNat ≤ 0x28 then .next (s.reply (.readData 0))
     else if off.toNat ≤ 0x38 then .next (s.reply (.readData (s.tweakin.get (Fin.ofNat 2 ((off.toNat - 0x30) / 8)))))
     else if off.toNat ≤ 0x58 then .next (s.reply (.readData (s.din.get (Fin.ofNat 4 ((off.toNat - 0x40) / 8)))))
     else if off.toNat ≤ 0x78 then .next (s.reply (.readData (s.dout.get (Fin.ofNat 4 ((off.toNat - 0x60) / 8)))))
     else .fault (.accessFault (Config.engineBase + off.toNat))) ∧
    ∀ t, portRead off size s = .next t → t.toEngine = s.toEngine

/-- 20_memory.md R58: what a host write of any size at any offset does; besides the answer, an operand write changes that register alone. -/
def Obligations.HostWriteByOffset : Prop :=
  ∀ (off : BitVec 8) (size : Nat) (w : Word) (s : State), portWrite off size w s =
    (if size ≠ 8 ∨ off.toNat % 8 ≠ 0 then .fault (.accessFault (Config.engineBase + off.toNat))
     else if off.toNat = 0x00 then command w (s.reply .writeDone)
     else if off.toNat = 0x08 then .next (s.reply .writeDone)
     else if off.toNat ≤ 0x28 then
       .next { s with answer := some .writeDone, keyin := s.keyin.set (Fin.ofNat 4 ((off.toNat - 0x10) / 8)) w }
     else if off.toNat ≤ 0x38 then
       .next { s with answer := some .writeDone, tweakin := s.tweakin.set (Fin.ofNat 2 ((off.toNat - 0x30) / 8)) w }
     else if off.toNat ≤ 0x58 then
       .next { s with answer := some .writeDone, din := s.din.set (Fin.ofNat 4 ((off.toNat - 0x40) / 8)) w }
     else if off.toNat ≤ 0x78 then .next (s.reply .writeDone)
     else .fault (.accessFault (Config.engineBase + off.toNat)))

/-- 60_exceptions.md R203: an access faults exactly when it is not 8 bytes wide, not aligned, or at an unmapped offset, with its own address;
every other access is answered. -/
def Obligations.AccessFaultExactlyOnBadAccess : Prop :=
  (∀ (off : BitVec 8) (size : Nat) (s : State),
    (size ≠ 8 ∨ off.toNat % 8 ≠ 0 ∨ 0x80 ≤ off.toNat →
      portRead off size s = .fault (.accessFault (Config.engineBase + off.toNat)) ∧
      ∀ w, portWrite off size w s = .fault (.accessFault (Config.engineBase + off.toNat))) ∧
    (size = 8 → off.toNat % 8 = 0 → off.toNat < 0x80 →
      (∃ t, portRead off size s = .next t) ∧ ∀ w, ∃ t, portWrite off size w s = .next t)) ∧
  (∀ (s : State) (f : Fault), step s = .fault f → ∃ a rest, s.pending = .access a :: rest ∧ ¬ a.Safe)

/-- 60_exceptions.md R204: an 8-byte CMD write runs the command, whatever the word, and never faults; a CMD write of another size faults and
runs none. -/
def Obligations.CommandWriteNeverFaults : Prop :=
  ∀ (w : Word) (s : State),
    (portWrite 0x00 8 w s = command w (s.reply .writeDone) ∧ ∃ t, portWrite 0x00 8 w s = .next t) ∧
    ∀ size, size ≠ 8 → portWrite 0x00 size w s = .fault (.accessFault Config.engineBase)

/-- 20_memory.md R53: the byte at offset `off + j` of the register at `off`, and the byte strings of the key, the tweak and the two blocks,
with the key, tweak and input words got back from their bytes. -/
def Obligations.WindowIsLittleEndian : Prop :=
  ∀ s : State,
    (∀ (off : BitVec 8) (j : Nat) (r : Reg), regAt off = some r → j < 8 →
      s.windowByte (off + BitVec.ofNat 8 j) = some ((s.regValue r).extractLsb' (8 * j) 8)) ∧
    (∀ i < 32, s.windowByte (BitVec.ofNat 8 (0x10 + i)) = some ((s.keyin.get (Fin.ofNat 4 (i / 8))).extractLsb' (8 * (i % 8)) 8)) ∧
    (∀ i < 16, s.windowByte (BitVec.ofNat 8 (0x30 + i)) = some ((s.tweakin.get (Fin.ofNat 2 (i / 8))).extractLsb' (8 * (i % 8)) 8)) ∧
    (∀ i < 32, s.windowByte (BitVec.ofNat 8 (0x40 + i)) = some ((s.din.get (Fin.ofNat 4 (i / 8))).extractLsb' (8 * (i % 8)) 8)) ∧
    (∀ i < 32, s.windowByte (BitVec.ofNat 8 (0x60 + i)) = some ((s.dout.get (Fin.ofNat 4 (i / 8))).extractLsb' (8 * (i % 8)) 8)) ∧
    leWords ((List.range 32).filterMap fun i => s.windowByte (BitVec.ofNat 8 (0x10 + i))) 4 =
      [s.keyin.w0, s.keyin.w1, s.keyin.w2, s.keyin.w3] ∧
    leWords ((List.range 16).filterMap fun i => s.windowByte (BitVec.ofNat 8 (0x30 + i))) 2 = [s.tweakin.w0, s.tweakin.w1] ∧
    leWords ((List.range 32).filterMap fun i => s.windowByte (BitVec.ofNat 8 (0x40 + i))) 4 =
      [s.din.w0, s.din.w1, s.din.w2, s.din.w3]

/-- 20_memory.md section 1: the window is the 256 host addresses from a base that is a multiple of 256, an address in it has the offset
`addr - ENGINE_BASE`, and no other address is the engine's. -/
def Obligations.WindowAddressesAndOffsets : Prop :=
  Config.engineBase % 256 = 0 ∧
  (∀ off : BitVec 8, windowOffset (Config.engineBase + off.toNat) = some off) ∧
  (∀ (addr : Nat) (off : BitVec 8), windowOffset addr = some off → addr = Config.engineBase + off.toNat) ∧
  (∀ addr : Nat, addr < Config.engineBase ∨ Config.engineBase + 0xFF < addr → windowOffset addr = none)

/-- 20_memory.md R60: a read changes no register; of the writes only one to CMD has an effect beyond its own register; an operand write
repeated with the same value, and a command repeated at once, leave the state they left the first time. -/
def Obligations.RepeatedAccessesAreIdempotent : Prop :=
  (∀ (off : BitVec 8) (size : Nat) (s t : State), portRead off size s = .next t → t.toEngine = s.toEngine) ∧
  (∀ (off : BitVec 8) (size : Nat) (w : Word) (s t : State), portWrite off size w s = .next t → off.toNat ≠ 0 →
    t.ek = s.ek ∧ t.et = s.et ∧ t.dout = s.dout ∧ t.status = s.status ∧
    (∀ o : BitVec 8, o.toNat / 8 ≠ off.toNat / 8 → t.windowByte o = s.windowByte o) ∧
    portWrite off size w t = .next t) ∧
  (∀ (w : Word) (s t : State), command w s = .next t → command w t = .next t)

/-- 60_exceptions.md section 4 and 10_state.md sections 2 and 3: no host read tells two states apart that differ only in KEYIN, EK and ET. -/
def Obligations.HostReadsRevealNoKeyMaterial : Prop :=
  ∀ (s : State) (k : Words4) (e : Words5) (x : Words3) (off : BitVec 8) (size : Nat),
    (∃ f, portRead off size s = .fault f ∧ portRead off size { s with keyin := k, ek := e, et := x } = .fault f) ∨
    (∃ a, portRead off size s = .next (s.reply a) ∧
      portRead off size { s with keyin := k, ek := e, et := x } =
        .next (({ s with keyin := k, ek := e, et := x } : State).reply a))

-- ==== Steps, order, reset (20_memory.md section 6, 70_reset_and_hazards.md, 60_exceptions.md) ====

/-- 30_encoding.md section 3 and 70_reset_and_hazards.md section 3: when the oldest event is the 8-byte write to CMD of a word whose bytes decode
to the command i, the step is exec of i, in the state with that event taken and the write acknowledged; i is well-formed. -/
def Obligations.StepRunsDecodedCommand : Prop :=
  ∀ (s : State) (w : Word) (rest : List HostEvent) (i : Instr), s.pending = .access (.write 0x00 8 w) :: rest →
    decode (leBytes w) = .ok (i, []) →
    i.wf = true ∧ step s = exec i { s with pending := rest, answer := some .writeDone }

/-- 20_memory.md section 6: a step takes the oldest event and leaves the later ones in order; with none presented, nothing changes; and a read
right after a write of a TWEAKIN or DIN word returns the word written. -/
def Obligations.EventsAreServedInOrder : Prop :=
  (∀ (s t : State) (e : HostEvent) (rest : List HostEvent), s.pending = e :: rest → step s = .next t → t.pending = rest) ∧
  (∀ s : State, s.pending = [] → step s = .next s) ∧
  (∀ (s : State) (off : BitVec 8) (v : Word) (rest : List HostEvent), off.toNat % 8 = 0 → 0x30 ≤ off.toNat → off.toNat < 0x60 →
    s.pending = sd off v :: ld off :: rest → ∃ t, s.Reaches 2 t ∧ t.answer = some (.readData v) ∧ t.pending = rest)

/-- 70_reset_and_hazards.md section 4: a read of STATUS or of a DOUT word right after a CMD write returns that command's result. -/
def Obligations.ResultIsReadableAtOnce : Prop :=
  ∀ (s : State) (w : Word) (rest : List HostEvent),
    (s.pending = sd 0x00 w :: ld 0x08 :: rest → ∃ u t, command w s = .next u ∧ s.Reaches 2 t ∧ t.answer = some (.readData u.status)) ∧
    (∀ i : Fin 4, s.pending = sd 0x00 w :: ld (BitVec.ofNat 8 (0x60 + 8 * i.val)) :: rest →
      ∃ u t, command w s = .next u ∧ s.Reaches 2 t ∧ t.answer = some (.readData (u.dout.get i)))

/-- 30_encoding.md section 4: the load pseudo-instructions, run from any state, write exactly their register arrays, and READSTATUS reads STATUS. -/
def Obligations.PseudoInstructionsExpand : Prop :=
  (∀ (s : State) (k : Words4) (rest : List HostEvent), s.pending = pseudoLoadKey k ++ rest →
    s.Reaches 4 { s with keyin := k, pending := rest, answer := some .writeDone }) ∧
  (∀ (s : State) (x : Words2) (rest : List HostEvent), s.pending = pseudoLoadTweak x ++ rest →
    s.Reaches 2 { s with tweakin := x, pending := rest, answer := some .writeDone }) ∧
  (∀ (s : State) (p : Words4) (rest : List HostEvent), s.pending = pseudoLoadBlock p ++ rest →
    s.Reaches 4 { s with din := p, pending := rest, answer := some .writeDone }) ∧
  (∀ (s : State) (rest : List HostEvent), s.pending = pseudoReadStatus ++ rest →
    s.Reaches 1 { s with pending := rest, answer := some (.readData s.status) })

/-- 70_reset_and_hazards.md R230: the reset value of every state element, EK and ET being the schedules of zeros; and the reset input, served
in any state, gives the engine exactly them, with no access served in between (that reset is one event of a list is the model's own
form: log entries 1 and 6). -/
def Obligations.ResetGivesEveryElementItsValue : Prop :=
  State.reset.toEngine =
    { keyin := ⟨0, 0, 0, 0⟩, tweakin := ⟨0, 0⟩, din := ⟨0, 0, 0, 0⟩, dout := ⟨0, 0, 0, 0⟩,
      ek := ⟨0, 0, 0, 0, 0x1BD11BDAA9FC1A22⟩, et := ⟨0, 0, 0⟩,
      keyValid := false, tweakValid := false, err := false, errcode := none } ∧
  errcodeBits State.reset.errcode = 0 ∧
  State.reset.ek = keySchedule ⟨0, 0, 0, 0⟩ ∧ State.reset.et = tweakSchedule ⟨0, 0⟩ ∧
  ∀ (s : State) (rest : List HostEvent), s.pending = .reset :: rest →
    step s = .next { s with toEngine := State.reset.toEngine, pending := rest }

/-- 60_exceptions.md section 3 (and log entry 4 for the open outcome): reset wins over the access under way. The engine takes the reset state,
and the host's access completes (a read with some data), faults or hangs. -/
def Obligations.ResetWinsOverAccessUnderWay : Prop :=
  ∀ (s : State) (a : Access) (rest : List HostEvent), s.pending = .resetDuring a :: rest →
    ∃ t, step s = .next t ∧ t.toEngine = State.reset.toEngine ∧ t.pending = rest ∧
      (t.answer = some .errorResponse ∨ t.answer = some .noAnswer ∨
       (∃ off size d, a = .read off size ∧ t.answer = some (.readData d)) ∨
       (∃ off size w, a = .write off size w ∧ t.answer = some .writeDone))

-- ==== Invariants ====

/-- 10_state.md sections 3 and 4: both parities and the agreement of ERR with ERRCODE hold at reset. -/
def Obligations.InvariantsHoldAtReset : Prop :=
  State.reset.Inv ∧ State.reset.UnloadedIsReset

/-- 10_state.md sections 3 and 4: every step keeps both parities and the agreement of ERR with ERRCODE, from every state that has them. -/
def Obligations.EveryStepKeepsInvariants : Prop :=
  ∀ s t : State, s.Inv → step s = .next t → t.Inv

/-- 10_state.md R34: both parity invariants hold in every state a host can drive the engine to from reset, whatever it presents, and in the
reset state; and every step that writes EK or ET writes a whole schedule output (what a host presents is a list of events in the
model: log entries 1 and 6). -/
def Obligations.ParityHoldsInEveryReachableState : Prop :=
  (∀ t : State, t.Reachable →
    t.ek.w4 = 0x1BD11BDAA9FC1A22#64 ^^^ t.ek.w0 ^^^ t.ek.w1 ^^^ t.ek.w2 ^^^ t.ek.w3 ∧ t.et.w2 = t.et.w0 ^^^ t.et.w1) ∧
  State.reset.ek = keySchedule ⟨0, 0, 0, 0⟩ ∧ State.reset.et = tweakSchedule ⟨0, 0⟩ ∧
  State.reset.KeyParity ∧ State.reset.TweakParity ∧
  (∀ s t : State, step s = .next t →
    (t.ek = s.ek ∨ ∃ k, t.ek = keySchedule k) ∧ (t.et = s.et ∨ ∃ x, t.et = tweakSchedule x))

/-- 42_block_commands.md (it has no numbered sections) and 10_state.md sections 2 to 4: every step keeps that a context part not yet supplied is the reset one, and
that DOUT is the reset one until both parts are. -/
def Obligations.EveryStepKeepsUnloadedReset : Prop :=
  ∀ s t : State, s.UnloadedIsReset → step s = .next t → t.UnloadedIsReset

/-- 60_exceptions.md sections 1 and 2: a step never refuses, and when the oldest event is no bad access it answers a next state. -/
def Obligations.StepsAnswerUnlessBadAccess : Prop :=
  ∀ s : State, (∀ r, step s ≠ .refused r) ∧ (s.SafeNext → ∃ t, step s = .next t)
end

