-- ==== Sys2Proof/Laws/State.lean ====
section
/-! SUPPORT. What each named update of the state does to each field: one lemma per field and update, so that no later proof unfolds a record update. -/

namespace Sys2Proof.Machine

section
variable (s : State)

@[simp] theorem State.writeKeyin_keyin (i : Fin 4) (v : Word) : (s.writeKeyin i v).keyin = s.keyin.set i v := rfl
@[simp] theorem State.writeKeyin_tweakin (i : Fin 4) (v : Word) : (s.writeKeyin i v).tweakin = s.tweakin := rfl
@[simp] theorem State.writeKeyin_din (i : Fin 4) (v : Word) : (s.writeKeyin i v).din = s.din := rfl
@[simp] theorem State.writeKeyin_dout (i : Fin 4) (v : Word) : (s.writeKeyin i v).dout = s.dout := rfl
@[simp] theorem State.writeKeyin_ek (i : Fin 4) (v : Word) : (s.writeKeyin i v).ek = s.ek := rfl
@[simp] theorem State.writeKeyin_et (i : Fin 4) (v : Word) : (s.writeKeyin i v).et = s.et := rfl
@[simp] theorem State.writeKeyin_keyValid (i : Fin 4) (v : Word) : (s.writeKeyin i v).keyValid = s.keyValid := rfl
@[simp] theorem State.writeKeyin_tweakValid (i : Fin 4) (v : Word) : (s.writeKeyin i v).tweakValid = s.tweakValid := rfl
@[simp] theorem State.writeKeyin_err (i : Fin 4) (v : Word) : (s.writeKeyin i v).err = s.err := rfl
@[simp] theorem State.writeKeyin_errcode (i : Fin 4) (v : Word) : (s.writeKeyin i v).errcode = s.errcode := rfl
@[simp] theorem State.writeKeyin_pending (i : Fin 4) (v : Word) : (s.writeKeyin i v).pending = s.pending := rfl
@[simp] theorem State.writeKeyin_answer (i : Fin 4) (v : Word) : (s.writeKeyin i v).answer = s.answer := rfl
@[simp] theorem State.writeKeyin_freeIndex (i : Fin 4) (v : Word) : (s.writeKeyin i v).freeIndex = s.freeIndex := rfl

@[simp] theorem State.writeTweakin_keyin (i : Fin 2) (v : Word) : (s.writeTweakin i v).keyin = s.keyin := rfl
@[simp] theorem State.writeTweakin_tweakin (i : Fin 2) (v : Word) : (s.writeTweakin i v).tweakin = s.tweakin.set i v := rfl
@[simp] theorem State.writeTweakin_din (i : Fin 2) (v : Word) : (s.writeTweakin i v).din = s.din := rfl
@[simp] theorem State.writeTweakin_dout (i : Fin 2) (v : Word) : (s.writeTweakin i v).dout = s.dout := rfl
@[simp] theorem State.writeTweakin_ek (i : Fin 2) (v : Word) : (s.writeTweakin i v).ek = s.ek := rfl
@[simp] theorem State.writeTweakin_et (i : Fin 2) (v : Word) : (s.writeTweakin i v).et = s.et := rfl
@[simp] theorem State.writeTweakin_keyValid (i : Fin 2) (v : Word) : (s.writeTweakin i v).keyValid = s.keyValid := rfl
@[simp] theorem State.writeTweakin_tweakValid (i : Fin 2) (v : Word) : (s.writeTweakin i v).tweakValid = s.tweakValid := rfl
@[simp] theorem State.writeTweakin_err (i : Fin 2) (v : Word) : (s.writeTweakin i v).err = s.err := rfl
@[simp] theorem State.writeTweakin_errcode (i : Fin 2) (v : Word) : (s.writeTweakin i v).errcode = s.errcode := rfl
@[simp] theorem State.writeTweakin_pending (i : Fin 2) (v : Word) : (s.writeTweakin i v).pending = s.pending := rfl
@[simp] theorem State.writeTweakin_answer (i : Fin 2) (v : Word) : (s.writeTweakin i v).answer = s.answer := rfl
@[simp] theorem State.writeTweakin_freeIndex (i : Fin 2) (v : Word) : (s.writeTweakin i v).freeIndex = s.freeIndex := rfl

@[simp] theorem State.writeDin_keyin (i : Fin 4) (v : Word) : (s.writeDin i v).keyin = s.keyin := rfl
@[simp] theorem State.writeDin_tweakin (i : Fin 4) (v : Word) : (s.writeDin i v).tweakin = s.tweakin := rfl
@[simp] theorem State.writeDin_din (i : Fin 4) (v : Word) : (s.writeDin i v).din = s.din.set i v := rfl
@[simp] theorem State.writeDin_dout (i : Fin 4) (v : Word) : (s.writeDin i v).dout = s.dout := rfl
@[simp] theorem State.writeDin_ek (i : Fin 4) (v : Word) : (s.writeDin i v).ek = s.ek := rfl
@[simp] theorem State.writeDin_et (i : Fin 4) (v : Word) : (s.writeDin i v).et = s.et := rfl
@[simp] theorem State.writeDin_keyValid (i : Fin 4) (v : Word) : (s.writeDin i v).keyValid = s.keyValid := rfl
@[simp] theorem State.writeDin_tweakValid (i : Fin 4) (v : Word) : (s.writeDin i v).tweakValid = s.tweakValid := rfl
@[simp] theorem State.writeDin_err (i : Fin 4) (v : Word) : (s.writeDin i v).err = s.err := rfl
@[simp] theorem State.writeDin_errcode (i : Fin 4) (v : Word) : (s.writeDin i v).errcode = s.errcode := rfl
@[simp] theorem State.writeDin_pending (i : Fin 4) (v : Word) : (s.writeDin i v).pending = s.pending := rfl
@[simp] theorem State.writeDin_answer (i : Fin 4) (v : Word) : (s.writeDin i v).answer = s.answer := rfl
@[simp] theorem State.writeDin_freeIndex (i : Fin 4) (v : Word) : (s.writeDin i v).freeIndex = s.freeIndex := rfl

@[simp] theorem State.loadKey_keyin (ek : Words5) : (s.loadKey ek).keyin = s.keyin := rfl
@[simp] theorem State.loadKey_tweakin (ek : Words5) : (s.loadKey ek).tweakin = s.tweakin := rfl
@[simp] theorem State.loadKey_din (ek : Words5) : (s.loadKey ek).din = s.din := rfl
@[simp] theorem State.loadKey_dout (ek : Words5) : (s.loadKey ek).dout = s.dout := rfl
@[simp] theorem State.loadKey_ek (ek : Words5) : (s.loadKey ek).ek = ek := rfl
@[simp] theorem State.loadKey_et (ek : Words5) : (s.loadKey ek).et = s.et := rfl
@[simp] theorem State.loadKey_keyValid (ek : Words5) : (s.loadKey ek).keyValid = true := rfl
@[simp] theorem State.loadKey_tweakValid (ek : Words5) : (s.loadKey ek).tweakValid = s.tweakValid := rfl
@[simp] theorem State.loadKey_err (ek : Words5) : (s.loadKey ek).err = s.err := rfl
@[simp] theorem State.loadKey_errcode (ek : Words5) : (s.loadKey ek).errcode = s.errcode := rfl
@[simp] theorem State.loadKey_pending (ek : Words5) : (s.loadKey ek).pending = s.pending := rfl
@[simp] theorem State.loadKey_answer (ek : Words5) : (s.loadKey ek).answer = s.answer := rfl
@[simp] theorem State.loadKey_freeIndex (ek : Words5) : (s.loadKey ek).freeIndex = s.freeIndex := rfl

@[simp] theorem State.loadTweak_keyin (et : Words3) : (s.loadTweak et).keyin = s.keyin := rfl
@[simp] theorem State.loadTweak_tweakin (et : Words3) : (s.loadTweak et).tweakin = s.tweakin := rfl
@[simp] theorem State.loadTweak_din (et : Words3) : (s.loadTweak et).din = s.din := rfl
@[simp] theorem State.loadTweak_dout (et : Words3) : (s.loadTweak et).dout = s.dout := rfl
@[simp] theorem State.loadTweak_ek (et : Words3) : (s.loadTweak et).ek = s.ek := rfl
@[simp] theorem State.loadTweak_et (et : Words3) : (s.loadTweak et).et = et := rfl
@[simp] theorem State.loadTweak_keyValid (et : Words3) : (s.loadTweak et).keyValid = s.keyValid := rfl
@[simp] theorem State.loadTweak_tweakValid (et : Words3) : (s.loadTweak et).tweakValid = true := rfl
@[simp] theorem State.loadTweak_err (et : Words3) : (s.loadTweak et).err = s.err := rfl
@[simp] theorem State.loadTweak_errcode (et : Words3) : (s.loadTweak et).errcode = s.errcode := rfl
@[simp] theorem State.loadTweak_pending (et : Words3) : (s.loadTweak et).pending = s.pending := rfl
@[simp] theorem State.loadTweak_answer (et : Words3) : (s.loadTweak et).answer = s.answer := rfl
@[simp] theorem State.loadTweak_freeIndex (et : Words3) : (s.loadTweak et).freeIndex = s.freeIndex := rfl

@[simp] theorem State.storeDout_keyin (b : Words4) : (s.storeDout b).keyin = s.keyin := rfl
@[simp] theorem State.storeDout_tweakin (b : Words4) : (s.storeDout b).tweakin = s.tweakin := rfl
@[simp] theorem State.storeDout_din (b : Words4) : (s.storeDout b).din = s.din := rfl
@[simp] theorem State.storeDout_dout (b : Words4) : (s.storeDout b).dout = b := rfl
@[simp] theorem State.storeDout_ek (b : Words4) : (s.storeDout b).ek = s.ek := rfl
@[simp] theorem State.storeDout_et (b : Words4) : (s.storeDout b).et = s.et := rfl
@[simp] theorem State.storeDout_keyValid (b : Words4) : (s.storeDout b).keyValid = s.keyValid := rfl
@[simp] theorem State.storeDout_tweakValid (b : Words4) : (s.storeDout b).tweakValid = s.tweakValid := rfl
@[simp] theorem State.storeDout_err (b : Words4) : (s.storeDout b).err = s.err := rfl
@[simp] theorem State.storeDout_errcode (b : Words4) : (s.storeDout b).errcode = s.errcode := rfl
@[simp] theorem State.storeDout_pending (b : Words4) : (s.storeDout b).pending = s.pending := rfl
@[simp] theorem State.storeDout_answer (b : Words4) : (s.storeDout b).answer = s.answer := rfl
@[simp] theorem State.storeDout_freeIndex (b : Words4) : (s.storeDout b).freeIndex = s.freeIndex := rfl

@[simp] theorem State.succeed_keyin : (s.succeed).keyin = s.keyin := rfl
@[simp] theorem State.succeed_tweakin : (s.succeed).tweakin = s.tweakin := rfl
@[simp] theorem State.succeed_din : (s.succeed).din = s.din := rfl
@[simp] theorem State.succeed_dout : (s.succeed).dout = s.dout := rfl
@[simp] theorem State.succeed_ek : (s.succeed).ek = s.ek := rfl
@[simp] theorem State.succeed_et : (s.succeed).et = s.et := rfl
@[simp] theorem State.succeed_keyValid : (s.succeed).keyValid = s.keyValid := rfl
@[simp] theorem State.succeed_tweakValid : (s.succeed).tweakValid = s.tweakValid := rfl
@[simp] theorem State.succeed_err : (s.succeed).err = false := rfl
@[simp] theorem State.succeed_errcode : (s.succeed).errcode = none := rfl
@[simp] theorem State.succeed_pending : (s.succeed).pending = s.pending := rfl
@[simp] theorem State.succeed_answer : (s.succeed).answer = s.answer := rfl
@[simp] theorem State.succeed_freeIndex : (s.succeed).freeIndex = s.freeIndex := rfl

@[simp] theorem State.fail_keyin (e : CmdError) : (s.fail e).keyin = s.keyin := rfl
@[simp] theorem State.fail_tweakin (e : CmdError) : (s.fail e).tweakin = s.tweakin := rfl
@[simp] theorem State.fail_din (e : CmdError) : (s.fail e).din = s.din := rfl
@[simp] theorem State.fail_dout (e : CmdError) : (s.fail e).dout = s.dout := rfl
@[simp] theorem State.fail_ek (e : CmdError) : (s.fail e).ek = s.ek := rfl
@[simp] theorem State.fail_et (e : CmdError) : (s.fail e).et = s.et := rfl
@[simp] theorem State.fail_keyValid (e : CmdError) : (s.fail e).keyValid = s.keyValid := rfl
@[simp] theorem State.fail_tweakValid (e : CmdError) : (s.fail e).tweakValid = s.tweakValid := rfl
@[simp] theorem State.fail_err (e : CmdError) : (s.fail e).err = true := rfl
@[simp] theorem State.fail_errcode (e : CmdError) : (s.fail e).errcode = some e := rfl
@[simp] theorem State.fail_pending (e : CmdError) : (s.fail e).pending = s.pending := rfl
@[simp] theorem State.fail_answer (e : CmdError) : (s.fail e).answer = s.answer := rfl
@[simp] theorem State.fail_freeIndex (e : CmdError) : (s.fail e).freeIndex = s.freeIndex := rfl

@[simp] theorem State.resetEngine_keyin : (s.resetEngine).keyin = Engine.reset.keyin := rfl
@[simp] theorem State.resetEngine_tweakin : (s.resetEngine).tweakin = Engine.reset.tweakin := rfl
@[simp] theorem State.resetEngine_din : (s.resetEngine).din = Engine.reset.din := rfl
@[simp] theorem State.resetEngine_dout : (s.resetEngine).dout = Engine.reset.dout := rfl
@[simp] theorem State.resetEngine_ek : (s.resetEngine).ek = Engine.reset.ek := rfl
@[simp] theorem State.resetEngine_et : (s.resetEngine).et = Engine.reset.et := rfl
@[simp] theorem State.resetEngine_keyValid : (s.resetEngine).keyValid = Engine.reset.keyValid := rfl
@[simp] theorem State.resetEngine_tweakValid : (s.resetEngine).tweakValid = Engine.reset.tweakValid := rfl
@[simp] theorem State.resetEngine_err : (s.resetEngine).err = Engine.reset.err := rfl
@[simp] theorem State.resetEngine_errcode : (s.resetEngine).errcode = Engine.reset.errcode := rfl
@[simp] theorem State.resetEngine_pending : (s.resetEngine).pending = s.pending := rfl
@[simp] theorem State.resetEngine_answer : (s.resetEngine).answer = s.answer := rfl
@[simp] theorem State.resetEngine_freeIndex : (s.resetEngine).freeIndex = s.freeIndex := rfl

@[simp] theorem State.consume_keyin (rest : List HostEvent) : (s.consume rest).keyin = s.keyin := rfl
@[simp] theorem State.consume_tweakin (rest : List HostEvent) : (s.consume rest).tweakin = s.tweakin := rfl
@[simp] theorem State.consume_din (rest : List HostEvent) : (s.consume rest).din = s.din := rfl
@[simp] theorem State.consume_dout (rest : List HostEvent) : (s.consume rest).dout = s.dout := rfl
@[simp] theorem State.consume_ek (rest : List HostEvent) : (s.consume rest).ek = s.ek := rfl
@[simp] theorem State.consume_et (rest : List HostEvent) : (s.consume rest).et = s.et := rfl
@[simp] theorem State.consume_keyValid (rest : List HostEvent) : (s.consume rest).keyValid = s.keyValid := rfl
@[simp] theorem State.consume_tweakValid (rest : List HostEvent) : (s.consume rest).tweakValid = s.tweakValid := rfl
@[simp] theorem State.consume_err (rest : List HostEvent) : (s.consume rest).err = s.err := rfl
@[simp] theorem State.consume_errcode (rest : List HostEvent) : (s.consume rest).errcode = s.errcode := rfl
@[simp] theorem State.consume_pending (rest : List HostEvent) : (s.consume rest).pending = rest := rfl
@[simp] theorem State.consume_answer (rest : List HostEvent) : (s.consume rest).answer = s.answer := rfl
@[simp] theorem State.consume_freeIndex (rest : List HostEvent) : (s.consume rest).freeIndex = s.freeIndex := rfl

@[simp] theorem State.reply_keyin (a : Answer) : (s.reply a).keyin = s.keyin := rfl
@[simp] theorem State.reply_tweakin (a : Answer) : (s.reply a).tweakin = s.tweakin := rfl
@[simp] theorem State.reply_din (a : Answer) : (s.reply a).din = s.din := rfl
@[simp] theorem State.reply_dout (a : Answer) : (s.reply a).dout = s.dout := rfl
@[simp] theorem State.reply_ek (a : Answer) : (s.reply a).ek = s.ek := rfl
@[simp] theorem State.reply_et (a : Answer) : (s.reply a).et = s.et := rfl
@[simp] theorem State.reply_keyValid (a : Answer) : (s.reply a).keyValid = s.keyValid := rfl
@[simp] theorem State.reply_tweakValid (a : Answer) : (s.reply a).tweakValid = s.tweakValid := rfl
@[simp] theorem State.reply_err (a : Answer) : (s.reply a).err = s.err := rfl
@[simp] theorem State.reply_errcode (a : Answer) : (s.reply a).errcode = s.errcode := rfl
@[simp] theorem State.reply_pending (a : Answer) : (s.reply a).pending = s.pending := rfl
@[simp] theorem State.reply_answer (a : Answer) : (s.reply a).answer = some a := rfl
@[simp] theorem State.reply_freeIndex (a : Answer) : (s.reply a).freeIndex = s.freeIndex := rfl

@[simp] theorem State.spendFree_keyin : (s.spendFree).keyin = s.keyin := rfl
@[simp] theorem State.spendFree_tweakin : (s.spendFree).tweakin = s.tweakin := rfl
@[simp] theorem State.spendFree_din : (s.spendFree).din = s.din := rfl
@[simp] theorem State.spendFree_dout : (s.spendFree).dout = s.dout := rfl
@[simp] theorem State.spendFree_ek : (s.spendFree).ek = s.ek := rfl
@[simp] theorem State.spendFree_et : (s.spendFree).et = s.et := rfl
@[simp] theorem State.spendFree_keyValid : (s.spendFree).keyValid = s.keyValid := rfl
@[simp] theorem State.spendFree_tweakValid : (s.spendFree).tweakValid = s.tweakValid := rfl
@[simp] theorem State.spendFree_err : (s.spendFree).err = s.err := rfl
@[simp] theorem State.spendFree_errcode : (s.spendFree).errcode = s.errcode := rfl
@[simp] theorem State.spendFree_pending : (s.spendFree).pending = s.pending := rfl
@[simp] theorem State.spendFree_answer : (s.spendFree).answer = s.answer := rfl
@[simp] theorem State.spendFree_freeIndex : (s.spendFree).freeIndex = s.freeIndex + 1 := rfl

@[simp] theorem State.presentCommand_keyin (w : Word) : (s.presentCommand w).keyin = s.keyin := rfl
@[simp] theorem State.presentCommand_tweakin (w : Word) : (s.presentCommand w).tweakin = s.tweakin := rfl
@[simp] theorem State.presentCommand_din (w : Word) : (s.presentCommand w).din = s.din := rfl
@[simp] theorem State.presentCommand_dout (w : Word) : (s.presentCommand w).dout = s.dout := rfl
@[simp] theorem State.presentCommand_ek (w : Word) : (s.presentCommand w).ek = s.ek := rfl
@[simp] theorem State.presentCommand_et (w : Word) : (s.presentCommand w).et = s.et := rfl
@[simp] theorem State.presentCommand_keyValid (w : Word) : (s.presentCommand w).keyValid = s.keyValid := rfl
@[simp] theorem State.presentCommand_tweakValid (w : Word) : (s.presentCommand w).tweakValid = s.tweakValid := rfl
@[simp] theorem State.presentCommand_err (w : Word) : (s.presentCommand w).err = s.err := rfl
@[simp] theorem State.presentCommand_errcode (w : Word) : (s.presentCommand w).errcode = s.errcode := rfl
@[simp] theorem State.presentCommand_pending (w : Word) : (s.presentCommand w).pending = .access (.write 0x00#8 8 w) :: s.pending := rfl
@[simp] theorem State.presentCommand_answer (w : Word) : (s.presentCommand w).answer = s.answer := rfl
@[simp] theorem State.presentCommand_freeIndex (w : Word) : (s.presentCommand w).freeIndex = s.freeIndex := rfl

@[simp] theorem State.resetEngine_toEngine : s.resetEngine.toEngine = Engine.reset := rfl
@[simp] theorem State.consume_toEngine (rest : List HostEvent) : (s.consume rest).toEngine = s.toEngine := rfl
@[simp] theorem State.reply_toEngine (a : Answer) : (s.reply a).toEngine = s.toEngine := rfl
@[simp] theorem State.spendFree_toEngine : s.spendFree.toEngine = s.toEngine := rfl
@[simp] theorem State.presentCommand_toEngine (w : Word) : (s.presentCommand w).toEngine = s.toEngine := rfl

end

end Sys2Proof.Machine
end

