-- ==== Sys2Proof/Laws/Ops.lean ====
section
/-! SUPPORT. What each shared operation can do, said once: the indexed arrays, a command, the port, one step. -/

namespace Sys2Proof

theorem Words2.get_set (a : Words2) (i j : Fin 2) (v : Word) :
    (a.set i v).get j = if j = i then v else a.get j := by
  fin_cases i <;> fin_cases j <;> rfl

theorem Words4.get_set (a : Words4) (i j : Fin 4) (v : Word) :
    (a.set i v).get j = if j = i then v else a.get j := by
  fin_cases i <;> fin_cases j <;> rfl

theorem Words2.set_set (a : Words2) (i : Fin 2) (v w : Word) : (a.set i v).set i w = a.set i w := by
  fin_cases i <;> rfl

theorem Words4.set_set (a : Words4) (i : Fin 4) (v w : Word) : (a.set i v).set i w = a.set i w := by
  fin_cases i <;> rfl

end Sys2Proof

namespace Sys2Proof.Machine

theorem contextReady_iff (s : State) : s.contextReady = true ↔ s.keyValid = true ∧ s.tweakValid = true := by
  simp [State.contextReady]

/-- A block command always answers: a context error, a length error, or the result. -/
theorem blockCommand_eq (f : Words5 → Words3 → Words4 → Words4) (blen : Nat) (s : State) :
    blockCommand f blen s = .next
      (if s.contextReady = false then s.fail .contextNotInitialised
       else if blen ≠ 32 then s.fail .invalidBlockLength
       else (s.storeDout (f s.ek s.et s.din)).succeed) := by
  unfold blockCommand requiredBlen
  split <;> simp_all
  split <;> simp_all

/-- Everything a command can do to the state: fail with some error, or have its effect and succeed. -/
theorem exec_cases {i : Instr} {s t : State} (h : exec i s = .next t) :
    (∃ e, t = s.fail e) ∨
    (i.op = 0x1#4 ∧ t = (s.loadKey (keySchedule s.keyin)).succeed) ∨
    (i.op = 0x2#4 ∧ t = (s.loadTweak (tweakSchedule s.tweakin)).succeed) ∨
    (i.op = 0x3#4 ∧ t = ((s.loadKey (keySchedule s.keyin)).loadTweak (tweakSchedule s.tweakin)).succeed) ∨
    (i.op = 0x4#4 ∧ s.contextReady = true ∧ t = (s.storeDout (enc s.ek s.et s.din)).succeed) ∨
    (i.op = 0x5#4 ∧ s.contextReady = true ∧ t = (s.storeDout (dec s.ek s.et s.din)).succeed) := by
  cases i with
  | rekey k t b =>
    simp only [exec, execRekey] at h
    split at h <;> cases h
    · exact .inl ⟨_, rfl⟩
    · exact .inr (.inl ⟨rfl, rfl⟩)
  | retweak k t b =>
    simp only [exec, execRetweak] at h
    split at h <;> cases h
    · exact .inl ⟨_, rfl⟩
    · exact .inr (.inr (.inl ⟨rfl, rfl⟩))
  | init k t b =>
    simp only [exec, execInit] at h
    split at h
    · cases h; exact .inl ⟨_, rfl⟩
    · split at h <;> cases h
      · exact .inl ⟨_, rfl⟩
      · exact .inr (.inr (.inr (.inl ⟨rfl, rfl⟩)))
  | encrypt k t b =>
    simp only [exec, execEncrypt, blockCommand_eq] at h
    cases hr : s.contextReady <;> simp only [hr] at h
    · cases h; exact .inl ⟨_, rfl⟩
    · by_cases hb : b = 32 <;> simp [hb] at h <;> subst h
      · exact .inr (.inr (.inr (.inr (.inl ⟨rfl, rfl, rfl⟩))))
      · exact .inl ⟨_, rfl⟩
  | decrypt k t b =>
    simp only [exec, execDecrypt, blockCommand_eq] at h
    cases hr : s.contextReady <;> simp only [hr] at h
    · cases h; exact .inl ⟨_, rfl⟩
    · by_cases hb : b = 32 <;> simp [hb] at h <;> subst h
      · exact .inr (.inr (.inr (.inr (.inr ⟨rfl, rfl, rfl⟩))))
      · exact .inl ⟨_, rfl⟩

/-- Everything a command word can do: it runs the command it decodes to, or it fails with `InvalidCommand`. -/
theorem command_cases {w : Word} {s t : State} (h : command w s = .next t) :
    (∃ i, decodeWord w = .ok i ∧ exec i s = .next t) ∨
    (∃ e, decodeWord w = .error e ∧ t = s.fail .invalidCommand) := by
  unfold command at h
  split at h
  · exact .inl ⟨_, ‹_›, h⟩
  · cases h; exact .inr ⟨_, ‹_›, rfl⟩

theorem goodForm_iff (off : BitVec 8) (size : Nat) : goodForm off size = true ↔ size = 8 ∧ off.toNat % 8 = 0 := by
  simp [goodForm]

/-- A read that is answered changes nothing but the answer. -/
theorem portRead_cases {off : BitVec 8} {size : Nat} {s t : State} (h : portRead off size s = .next t) :
    ∃ r, size = 8 ∧ off.toNat % 8 = 0 ∧ regAt off = some r ∧ t = s.reply (.readData (s.readReg r)) := by
  unfold portRead at h
  split at h
  · split at h
    · cases h
      exact ⟨_, ((goodForm_iff _ _).1 ‹_›).1, ((goodForm_iff _ _).1 ‹_›).2, ‹_›, rfl⟩
    · cases h
  · cases h

/-- A write that is answered writes the register at its offset. -/
theorem portWrite_cases {off : BitVec 8} {size : Nat} {w : Word} {s t : State} (h : portWrite off size w s = .next t) :
    ∃ r, size = 8 ∧ off.toNat % 8 = 0 ∧ regAt off = some r ∧ writeReg r w (s.reply .writeDone) = .next t := by
  unfold portWrite at h
  split at h
  · split at h
    · exact ⟨_, ((goodForm_iff _ _).1 ‹_›).1, ((goodForm_iff _ _).1 ‹_›).2, ‹_›, h⟩
    · cases h
  · cases h

/-- Everything a register write can do. -/
theorem writeReg_cases {r : Reg} {w : Word} {s t : State} (h : writeReg r w s = .next t) :
    (r = .cmd ∧ command w s = .next t) ∨
    ((r = .status ∨ ∃ i, r = .dout i) ∧ t = s) ∨
    (∃ i, r = .keyin i ∧ t = s.writeKeyin i w) ∨
    (∃ i, r = .tweakin i ∧ t = s.writeTweakin i w) ∨
    (∃ i, r = .din i ∧ t = s.writeDin i w) := by
  cases r with
  | cmd => exact .inl ⟨rfl, h⟩
  | status => cases h; exact .inr (.inl ⟨.inl rfl, rfl⟩)
  | dout i => cases h; exact .inr (.inl ⟨.inr ⟨i, rfl⟩, rfl⟩)
  | keyin i => cases h; exact .inr (.inr (.inl ⟨i, rfl, rfl⟩))
  | tweakin i => cases h; exact .inr (.inr (.inr (.inl ⟨i, rfl, rfl⟩)))
  | din i => cases h; exact .inr (.inr (.inr (.inr ⟨i, rfl, rfl⟩)))

/-- The register at an offset is `CMD` only at offset 0. -/
theorem regAt_eq_cmd {off : BitVec 8} (h : regAt off = some .cmd) : off = 0x00#8 := by
  revert h; revert off; decide

/-- The registers stand at the 16 multiples of 8 below `0x80`. -/
theorem regAt_isSome_iff (off : BitVec 8) : (regAt off).isSome = true ↔ off.toNat % 8 = 0 ∧ off.toNat < 0x80 := by
  revert off; decide

/-- Everything a step can do, event by event. -/
theorem step_cases {s t : State} (h : step s = .next t) :
    (s.pending = [] ∧ t = s) ∨
    (∃ rest off r, s.pending = .access (.read off 8) :: rest ∧ regAt off = some r ∧
      t = (s.consume rest).reply (.readData (s.readReg r))) ∨
    (∃ rest off r w, s.pending = .access (.write off 8 w) :: rest ∧ regAt off = some r ∧
      writeReg r w ((s.consume rest).reply .writeDone) = .next t) ∨
    (∃ rest, s.pending = .reset :: rest ∧ t = (s.consume rest).resetEngine) ∨
    (∃ rest a, s.pending = .resetDuring a :: rest ∧ t = abandon a (s.consume rest)) := by
  unfold step serveNext at h
  split at h
  · cases h; exact .inl ⟨‹_›, rfl⟩
  · rename_i e rest hp
    cases e with
    | reset => cases h; exact .inr (.inr (.inr (.inl ⟨rest, hp, rfl⟩)))
    | resetDuring a => cases h; exact .inr (.inr (.inr (.inr ⟨rest, a, hp, rfl⟩)))
    | access a =>
      cases a with
      | read off size =>
        obtain ⟨r, rfl, -, hr, rfl⟩ := portRead_cases h
        exact .inr (.inl ⟨rest, off, r, hp, hr, rfl⟩)
      | write off size w =>
        obtain ⟨r, rfl, -, hr, hw⟩ := portWrite_cases h
        exact .inr (.inr (.inl ⟨rest, off, r, w, hp, hr, hw⟩))

/-- A step that writes `CMD` runs the command word, the write acknowledged. -/
theorem step_command (s : State) (w : Word) (rest : List HostEvent)
    (h : s.pending = .access (.write 0x00#8 8 w) :: rest) :
    step s = command w ((s.consume rest).reply .writeDone) := by
  simp [step, serveNext, h, serve, portAccess, portWrite, goodForm, regAt, writeReg]

end Sys2Proof.Machine
end

