-- ==== Sys2Proof/Tests/Slice0.lean ====
section
/-! SUPPORT. Tests, their expected results from spec/95_test_vectors.md or worked out by hand from the rule named, and a witness for the hypotheses of every obligation that has any. -/

namespace Sys2Proof.Tests

open Sys2Proof Sys2Proof.Machine

/-- The next state of an outcome, if it is one. -/
def nextOf (o : Host.Outcome State Fault Refusal) : Option State :=
  match o with
  | .next s => some s
  | _ => none

/-- "Ready" of 95_test_vectors.md 3.6: reset, then INIT with the zero key and tweak. -/
def ready : State := { State.reset with keyValid := true, tweakValid := true }

/-- A state whose registers all hold different values, with a broken parity, which no run reaches. -/
def odd : State :=
  { keyin := ⟨1, 2, 3, 4⟩, tweakin := ⟨5, 6⟩, din := ⟨7, 8, 9, 10⟩, dout := ⟨11, 12, 13, 14⟩,
    ek := ⟨15, 16, 17, 18, 19⟩, et := ⟨20, 21, 22⟩, keyValid := true, tweakValid := true, err := true,
    errcode := some .invalidCommand, pending := [], answer := none, freeIndex := 3 }

-- ==== WellFormed: an ill-formed term for each check, and the largest well-formed one ====

theorem test_wf_klen_256_refused : (Instr.rekey 256 0 0).wf = false := by decide
theorem test_wf_tlen_256_refused : (Instr.retweak 0 256 0).wf = false := by decide
theorem test_wf_blen_256_refused : (Instr.encrypt 0 0 256).wf = false := by decide
theorem test_wf_init_refused : (Instr.init 32 300 0).wf = false := by decide
theorem test_wf_decrypt_refused : (Instr.decrypt 0 0 1000).wf = false := by decide
theorem test_wf_all_255 : (Instr.decrypt 255 255 255).wf = true := by decide

-- ==== Decoding: words written out from the field table of 30_encoding.md R81 ====

/-- RSV1 | BLEN 0x55 | TLEN 0xAA | KLEN 0x20 | RSV0 | OP 1. -/
theorem test_decode_rekey : decodeWord 0x0000000055AA2001 = .ok (.rekey 0x20 0xAA 0x55) := by decide
theorem test_decode_retweak : decodeWord 0x00000000020F0102 = .ok (.retweak 1 15 2) := by decide
theorem test_decode_init : decodeWord 0x0000000000102003 = .ok (.init 32 16 0) := by decide
theorem test_decode_encrypt : decodeWord 0x00000000FF000004 = .ok (.encrypt 0 0 255) := by decide
theorem test_decode_decrypt : decodeWord 0x0000000020000005 = .ok (.decrypt 0 0 32) := by decide
theorem test_decode_op_0 : decodeWord 0 = .error .reservedOp := by decide
theorem test_decode_op_6 : decodeWord 6 = .error .reservedOp := by decide
theorem test_decode_op_15 : decodeWord 15 = .error .reservedOp := by decide
/-- D-CMD-9: a reserved bit of `[7:4]`, though `OP` and `KLEN` are good. -/
theorem test_decode_rsv0 : decodeWord 0x0000000000002011 = .error .reservedBits0 := by decide
/-- D-CMD-10: bit 32. -/
theorem test_decode_rsv1 : decodeWord 0x0000000100002001 = .error .reservedBits1 := by decide
/-- The bytes of REKEY's canonical word, least significant first, and one more byte after them. -/
theorem test_decode_bytes : decode [0x01, 0x20, 0, 0, 0, 0, 0, 0, 0xEE] = .ok (.rekey 32 0 0, [0xEE]) := by decide
theorem test_decode_seven_bytes : decode [0x01, 0x20, 0, 0, 0, 0, 0] = .error .truncated := by decide
theorem test_decode_table_word : decodeTableWord 64 0x0000000000100002 = some (.retweak 0 16 0) := by decide
theorem test_decode_table_illegal : decodeTableWord 64 0x10 = none := by decide
theorem test_fetch_word : nextOf (step (State.reset.withFetchWord 64 0x0000000000102003)) =
    nextOf (exec (.init 32 16 0) { State.reset with answer := some .writeDone }) := by decide

-- ==== Schedules and network: 95_test_vectors.md 3.1 to 3.5 ====

/-- D-KS-3: the words XOR to `C240`. -/
theorem test_key_schedule_parity_zero : keySchedule ⟨0x1BD11BDAA9FC1A22, 0, 0, 0⟩ = ⟨0x1BD11BDAA9FC1A22, 0, 0, 0, 0⟩ := by decide
/-- D-TS-2. -/
theorem test_tweak_schedule : tweakSchedule ⟨0x0706050403020100, 0x0F0E0D0C0B0A0908⟩ =
    ⟨0x0706050403020100, 0x0F0E0D0C0B0A0908, 0x0808080808080808⟩ := by decide
/-- D-MIX-2, the addition wraps to 0. -/
theorem test_mix_wraps : mix 0xFFFFFFFFFFFFFFFF 0x1 16 = (0x0, 0x10000) := by decide
/-- D-MIX-4 and its inverse. -/
theorem test_mix_half : mix 0x0123456789ABCDEF 0xFEDCBA9876543210 32 = (0xFFFFFFFFFFFFFFFF, 0x89ABCDEF01234567) := by decide
theorem test_mix_inv_half : mixInv 0xFFFFFFFFFFFFFFFF 0x89ABCDEF01234567 32 = (0x0123456789ABCDEF, 0xFEDCBA9876543210) := by decide
/-- D-RND-2: a round without PERM, or with 1 and 2 swapped, fails this row. -/
theorem test_round : roundFwd ⟨1, 2, 3, 4⟩ 0 = ⟨0x3, 0x40007, 0x7, 0x8003⟩ := by decide
/-- D-RND-4 and its inverse. -/
theorem test_round_1 : roundFwd ⟨0x0123456789ABCDEF, 0xFEDCBA9876543210, 0x0F0F0F0F0F0F0F0F, 0xF0F0F0F0F0F0F0F0⟩ 1 =
    ⟨0xFFFFFFFFFFFFFFFF, 0x1E1E1E1E1E1E1E1E, 0xFFFFFFFFFFFFFFFF, 0xDEF0123456789ABC⟩ := by decide
theorem test_round_inv_1 : roundInv ⟨0xFFFFFFFFFFFFFFFF, 0x1E1E1E1E1E1E1E1E, 0xFFFFFFFFFFFFFFFF, 0xDEF0123456789ABC⟩ 1 =
    ⟨0x0123456789ABCDEF, 0xFEDCBA9876543210, 0x0F0F0F0F0F0F0F0F, 0xF0F0F0F0F0F0F0F0⟩ := by decide
/-- 95_test_vectors.md 3.4, the K2 context, rows 2 and 18. -/
theorem test_subkey_k2 :
    (subkey ⟨0x1716151413121110, 0x1F1E1D1C1B1A1918, 0x2726252423222120, 0x2F2E2D2C2B2A2928, 0x1BD11BDAA9FC1A22⟩
      ⟨0x0706050403020100, 0x0F0E0D0C0B0A0908, 0x0808080808080808⟩ 2 =
        ⟨0x2726252423222120, 0x3736353433323130, 0x22D720DEACFE1B22, 0x1716151413121112⟩) ∧
    (subkey ⟨0x1716151413121110, 0x1F1E1D1C1B1A1918, 0x2726252423222120, 0x2F2E2D2C2B2A2928, 0x1BD11BDAA9FC1A22⟩
      ⟨0x0706050403020100, 0x0F0E0D0C0B0A0908, 0x0808080808080808⟩ 18 =
        ⟨0x2F2E2D2C2B2A2928, 0x22D720DEACFE1B22, 0x262422201E1C1A18, 0x1F1E1D1C1B1A192A⟩) := by decide
/-- Vector K2. -/
theorem test_enc_k2 :
    enc (keySchedule ⟨0x1716151413121110, 0x1F1E1D1C1B1A1918, 0x2726252423222120, 0x2F2E2D2C2B2A2928⟩)
      (tweakSchedule ⟨0x0706050403020100, 0x0F0E0D0C0B0A0908⟩)
      ⟨0xF8F9FAFBFCFDFEFF, 0xF0F1F2F3F4F5F6F7, 0xE8E9EAEBECEDEEEF, 0xE0E1E2E3E4E5E6E7⟩ =
    ⟨0xDF8FEA0EFF91D0E0, 0xD50AD82EE69281C9, 0x76F48D58085D869D, 0xDF975E95B5567065⟩ := by decide +kernel
/-- D-ENC-3: all-ones key, tweak and block. -/
theorem test_enc_ones :
    enc (keySchedule ⟨-1, -1, -1, -1⟩) (tweakSchedule ⟨-1, -1⟩) ⟨-1, -1, -1, -1⟩ =
    ⟨0x6577EC044C721831, 0x33FB570832CBC077, 0x35FB7154195F24E5, 0x8B989BB969F1A02B⟩ := by decide +kernel
/-- D-DEC-3. -/
theorem test_dec_zero :
    dec (keySchedule ⟨0, 0, 0, 0⟩) (tweakSchedule ⟨0, 0⟩) ⟨0, 0, 0, 0⟩ =
    ⟨0xADAA62AD1F850D19, 0xF5D78220F6744B6B, 0xFC4D94DA2C29F59F, 0xFB46C01C3CF4D4DA⟩ := by decide +kernel
/-- D-DEC-2. -/
theorem test_dec_k2 :
    dec (keySchedule ⟨0x1716151413121110, 0x1F1E1D1C1B1A1918, 0x2726252423222120, 0x2F2E2D2C2B2A2928⟩)
      (tweakSchedule ⟨0x0706050403020100, 0x0F0E0D0C0B0A0908⟩)
      ⟨0xDF8FEA0EFF91D0E0, 0xD50AD82EE69281C9, 0x76F48D58085D869D, 0xDF975E95B5567065⟩ =
    ⟨0xF8F9FAFBFCFDFEFF, 0xF0F1F2F3F4F5F6F7, 0xE8E9EAEBECEDEEEF, 0xE0E1E2E3E4E5E6E7⟩ := by decide +kernel
/-- D-ENC-1, the state after INJECT s = 3: 16 micro-steps of the trace of the all-zero vector. -/
theorem test_micro_trace :
    microRun (keySchedule ⟨0, 0, 0, 0⟩) (tweakSchedule ⟨0, 0⟩) (forwardOps.take 16) ⟨0, 0, 0, 0⟩ =
    ⟨0x0068C71D9376B741, 0x400933A14E65D6C4, 0xEAE334BACAEEDB8E, 0x4E8FDCFAEDB0C1BB⟩ := by decide +kernel

-- ==== Commands: 95_test_vectors.md 3.6, one step each ====

/-- D-CMD-1: reset, ENCRYPT: ContextNotInitialised, DOUT stays 0. -/
theorem test_encrypt_without_context : (nextOf (command 0x0000000020000004 State.reset)).map (fun t => (t.status, t.dout)) =
    some (0x54, ⟨0, 0, 0, 0⟩) := by decide
/-- D-CMD-2: the context check wins over the block length. -/
theorem test_context_before_length : (nextOf (command 0x000000001F000004 State.reset)).map State.status = some 0x54 := by decide
/-- D-CMD-3 and D-CMD-14: REKEY from reset, with garbage in the ignored fields. -/
theorem test_rekey : (nextOf (command 0x00000000AA552001 State.reset)).map (fun t => (t.status, t.ek)) =
    some (0x01, ⟨0, 0, 0, 0, 0x1BD11BDAA9FC1A22⟩) := by decide
/-- D-CMD-4: KLEN = 31 leaves EK. -/
theorem test_rekey_31 : (nextOf (command 0x0000000000001F01 { ready with keyin := ⟨1, 2, 3, 4⟩ })).map (fun t => (t.status, t.ek)) =
    some (0x17, ⟨0, 0, 0, 0, 0x1BD11BDAA9FC1A22⟩) := by decide
/-- The example of 40_schedules.md R115. -/
theorem test_retweak : (nextOf (command 0x0000000000100002
      { State.reset with tweakin := ⟨0x0706050403020100, 0x0F0E0D0C0B0A0908⟩ })).map (fun t => (t.status, t.et)) =
    some (0x02, ⟨0x0706050403020100, 0x0F0E0D0C0B0A0908, 0x0808080808080808⟩) := by decide
/-- D-CMD-5. -/
theorem test_retweak_15 : (nextOf (command 0x00000000000F0002 ready)).map State.status = some 0x27 := by decide
/-- D-CMD-12: all or nothing. -/
theorem test_init_bad_tweak : (nextOf (command 0x00000000000F2003 { State.reset with keyin := ⟨1, 2, 3, 4⟩ })).map
    (fun t => (t.status, t.ek)) = some (0x24, ⟨0, 0, 0, 0, 0x1BD11BDAA9FC1A22⟩) := by decide
/-- D-CMD-13: the key check wins. -/
theorem test_init_both_wrong : (nextOf (command 0x00000000000F1F03 State.reset)).map State.status = some 0x14 := by decide
/-- D-CMD-15: a success clears the error, and DOUT is the K1 ciphertext. -/
theorem test_encrypt : (nextOf (command 0x0000000020000004 { ready with err := true, errcode := some .invalidKeyLength })).map
    (fun t => (t.status, t.dout)) =
    some (0x03, ⟨0x94EEEA8B1F2ADA84, 0xADF103313EAE6670, 0x952419A1F4B16D53, 0xD83F13E63C9F6B11⟩) := by decide +kernel
/-- D-DEC-1 as a command. -/
theorem test_decrypt : (nextOf (command 0x0000000020000005
      { ready with din := ⟨0x94EEEA8B1F2ADA84, 0xADF103313EAE6670, 0x952419A1F4B16D53, 0xD83F13E63C9F6B11⟩, dout := ⟨1, 1, 1, 1⟩ })).map
    (fun t => t.dout) = some ⟨0, 0, 0, 0⟩ := by decide +kernel
/-- D-CMD-3b: DECRYPT with the key only. -/
theorem test_decrypt_without_tweak : (nextOf (command 0x0000000020000005 { State.reset with keyValid := true })).map State.status =
    some 0x55 := by decide
/-- D-CMD-7: OP = 0 is no no-op. -/
theorem test_op_0_is_an_error : (nextOf (command 0 ready)).map State.status = some 0x47 := by decide
/-- D-CMD-9. -/
theorem test_reserved_bit_is_an_error : (nextOf (command 0x0000000000002011 { ready with keyin := ⟨1, 2, 3, 4⟩ })).map
    (fun t => (t.status, t.ek)) = some (0x47, ⟨0, 0, 0, 0, 0x1BD11BDAA9FC1A22⟩) := by decide

-- ==== Register accesses: 95_test_vectors.md 3.7 ====

/-- D-ACC-3: KEYIN is write-only. -/
theorem test_read_keyin : (nextOf (portRead 0x10 8 odd)).map State.answer = some (some (.readData 0)) := by decide
/-- D-ACC-4, and the other word of the pair. -/
theorem test_read_tweakin : (nextOf (portRead 0x38 8 odd)).map State.answer = some (some (.readData 6)) := by decide
theorem test_read_din : (nextOf (portRead 0x58 8 odd)).map State.answer = some (some (.readData 10)) := by decide
theorem test_read_dout : (nextOf (portRead 0x60 8 odd)).map State.answer = some (some (.readData 11)) := by decide
theorem test_write_keyin : (nextOf (portWrite 0x28 8 0x1234 odd)).map (fun t => t.keyin) = some ⟨1, 2, 3, 0x1234⟩ := by decide
theorem test_write_din : (nextOf (portWrite 0x40 8 0x1234 odd)).map (fun t => t.din) = some ⟨0x1234, 8, 9, 10⟩ := by decide
/-- D-ACC-5. -/
theorem test_write_dout_ignored : (nextOf (portWrite 0x60 8 5 odd)).map State.toEngine = some odd.toEngine := by decide
/-- D-ACC-6. -/
theorem test_write_status_ignored : (nextOf (portWrite 0x08 8 0xFF odd)).map State.toEngine = some odd.toEngine := by decide
/-- D-ACC-7. -/
theorem test_narrow_read_faults : portRead 0x08 4 odd = .fault (.accessFault (Config.engineBase + 8)) := rfl
/-- D-ACC-8. -/
theorem test_misaligned_write_faults : portWrite 0x04 8 0x2001 odd = .fault (.accessFault (Config.engineBase + 4)) := rfl
/-- D-ACC-9. -/
theorem test_unmapped_faults : portRead 0x80 8 odd = .fault (.accessFault (Config.engineBase + 0x80)) ∧
    portWrite 0xF8 8 0 odd = .fault (.accessFault (Config.engineBase + 0xF8)) := ⟨rfl, rfl⟩
/-- D-ACC-10. -/
theorem test_narrow_command_faults : portWrite 0x00 4 0x2001 odd = .fault (.accessFault (Config.engineBase + 0)) := rfl
/-- D-ACC-11. -/
theorem test_key_bytes : (List.range 8).map (fun i =>
      State.windowByte { State.reset with keyin := ⟨0x0706050403020100, 0, 0, 0⟩ } (BitVec.ofNat 8 (0x10 + i))) =
    [some 0, some 1, some 2, some 3, some 4, some 5, some 6, some 7] := by decide
theorem test_unmapped_byte : odd.windowByte 0x80 = none := by decide
theorem test_reset_event : (nextOf (step { odd with pending := [.reset] })).map State.toEngine = some Engine.reset := by decide
theorem test_idle_keeps_everything : nextOf (step odd) = some odd := by decide

-- ==== Witnesses: the hypotheses of each obligation that has any, met together, at the boundaries of their ranges ====

/-- WordOperationsAreModular: the rotation amounts 1, 63 and 0 and the counter 18. -/
theorem witness_word_operations : (1 ≤ 1 ∧ 1 ≤ 63) ∧ (1 ≤ 63 ∧ 63 ≤ 63) ∧ (0 ≤ 63) ∧ (18 ≤ 18) ∧
    rotl 0x8000000000000001 1 = 0x3 ∧ rotr 0x3 63 = 0x6 ∧ (subkey ⟨0, 0, 0, 0, 0⟩ ⟨1, 2, 3⟩ 18).w3 = 18 := by decide
/-- MixAddsRotatesXors and MixInvUndoesMix: the amounts 63 (D-MIX-5) and 0. -/
theorem witness_mix_amounts : 63 ≤ 63 ∧ mix 0x0 0x1 63 = (0x1, 0x8000000000000001) ∧ 0 ≤ 63 ∧ mix 1 2 0 = (3, 1) ∧
    mixInv 3 1 0 = (1, 2) := by decide
/-- RoundLanesAreIndependent: two blocks that agree on one lane alone, before and after the permutation. -/
theorem witness_lanes : ∃ v v' : Words4, v ≠ v' ∧ v.w0 = v'.w0 ∧ v.w1 = v'.w1 := ⟨⟨1, 2, 3, 4⟩, ⟨1, 2, 5, 6⟩, by decide⟩
theorem witness_lanes_high : ∃ v v' : Words4, v ≠ v' ∧ v.w2 = v'.w2 ∧ v.w3 = v'.w3 := ⟨⟨1, 2, 3, 4⟩, ⟨5, 6, 3, 4⟩, by decide⟩
theorem witness_lanes_inverse : ∃ v v' : Words4, v ≠ v' ∧ (perm v).w0 = (perm v').w0 ∧ (perm v).w1 = (perm v').w1 :=
  ⟨⟨1, 2, 3, 4⟩, ⟨1, 5, 6, 4⟩, by decide⟩
theorem witness_lanes_inverse_high : ∃ v v' : Words4, v ≠ v' ∧ (perm v).w2 = (perm v').w2 ∧ (perm v).w3 = (perm v').w3 :=
  ⟨⟨1, 2, 3, 4⟩, ⟨5, 2, 3, 6⟩, by decide⟩
/-- EncryptionIsABijection. -/
theorem witness_distinct_blocks : (⟨0, 0, 0, 0⟩ : Words4) ≠ ⟨1, 0, 0, 0⟩ := by decide
/-- DecodeOfEncodedCommand and DecodeOfByteString: every length at 255, and seven bytes. -/
theorem witness_well_formed : (Instr.init 255 255 255).wf = true ∧ (Instr.rekey 0 0 0).wf = true ∧
    [0x01, 0x20, 0, 0, 0, 0, (0 : Byte)].length < 8 := by decide
/-- EncodeOfDecodedWord. -/
theorem witness_decoded_word : decodeWord 0x00000000FFFFFF03 = .ok (.init 255 255 255) := by decide
/-- IllegalWordsAreInvalidCommand: an illegal word for each of its reasons, and a legal one of the least and the greatest opcode. -/
theorem witness_illegal_words : IllegalWord 0x2000 ∧ IllegalWord 0x2006 ∧ IllegalWord 0x200F ∧ IllegalWord 0x2011 ∧
    IllegalWord 0x0000000100002001 ∧ IllegalWord 0x8000000000002001 ∧ ¬ IllegalWord 0x2001 ∧
    ¬ IllegalWord 0x0000000020000005 := by decide
/-- UnconsumedLengthsAreIgnored: two different REKEY words (D-CMD-14), two RETWEAK words and two ENCRYPT words. -/
theorem witness_ignored_lengths :
    (wordOp 0x00000000AA552001 = wordOp 0x2001 ∧ wordRsv0 0x00000000AA552001 = wordRsv0 0x2001 ∧
      wordRsv1 0x00000000AA552001 = wordRsv1 0x2001 ∧ wordKlen 0x00000000AA552001 = wordKlen 0x2001 ∧ wordOp 0x2001 = 1) ∧
    (wordTlen 0x0000000001100102 = wordTlen 0x100002 ∧ wordOp 0x0000000001100102 = 2) ∧
    (wordBlen 0x0000000020FFFF04 = wordBlen 0x20000004 ∧ wordOp 0x0000000020FFFF04 = 4) := by decide
/-- FailedCommandWritesOnlyStatus: a failed command in a state no run reaches, an offset on each side of STATUS. -/
theorem witness_failed_command : (∃ t, command 0x1F01 odd = .next t ∧ t.err = true) ∧
    (0x07#8).toNat / 8 ≠ 1 ∧ (0x10#8).toNat / 8 ≠ 1 ∧ (0xFF#8).toNat / 8 ≠ 1 := ⟨⟨_, rfl, rfl⟩, by decide⟩
/-- ErrorFieldsDescribeLastCommand: a step that is neither a CMD write nor a reset, and a reachable state. -/
theorem witness_other_event : (∃ t, step { odd with pending := [ld 0x08] } = .next t) ∧
    ¬ ({ odd with pending := [ld 0x08] } : State).ResetNext ∧ ∀ w, ¬ ({ odd with pending := [ld 0x08] } : State).CommandNext w :=
  ⟨⟨_, rfl⟩, id, fun _ h => by obtain ⟨rest, h⟩ := h; cases h⟩
theorem witness_reachable : ∃ t : State, t.Reachable ∧ t.keyValid = true ∧ t.ek = ⟨1, 0, 0, 0, 0x1BD11BDAA9FC1A23⟩ :=
  ⟨_, ⟨{ State.reset with pending := [sd 0x10 1, sd 0x00 0x2001] }, 2, rfl, rfl⟩, by decide, by decide⟩
/-- RekeyReplacesExpandedKey: lengths 31, 33 and 0, a REKEY word with each reserved field nonzero, and the two keys of its corner cases. -/
theorem witness_rekey : 31 ≠ 32 ∧ 33 ≠ 32 ∧ 0 ≠ 32 ∧
    (wordOp 0x2011 = 1 ∧ wordRsv0 0x2011 ≠ 0) ∧ (wordOp 0x0000000100002001 = 1 ∧ wordRsv1 0x0000000100002001 ≠ 0) ∧
    (0x1BD11BDAA9FC1A22#64 ^^^ 0 ^^^ 0 ^^^ 0 = 0x1BD11BDAA9FC1A22#64) ∧ (7#64 ^^^ 7 ^^^ 0 ^^^ 0 = 0) := by decide
/-- RetweakReplacesExpandedTweak. -/
theorem witness_retweak : 15 ≠ 16 ∧ 17 ≠ 16 ∧ wordOp 0x0000000000100012 = 2 ∧ wordRsv0 0x0000000000100012 ≠ 0 := by decide
/-- InitLoadsKeyAndTweakAllOrNothing. -/
theorem witness_init : 31 ≠ 32 ∧ 15 ≠ 16 ∧ wordOp 0x00000000001020F3 = 3 ∧ wordRsv0 0x00000000001020F3 ≠ 0 := by decide
/-- EncryptWritesForwardTransform and DecryptWritesInverseTransform: each clause's context and length, and the reserved bits. -/
theorem witness_block_commands : (ready.keyValid = true ∧ ready.tweakValid = true) ∧ State.reset.keyValid = false ∧
    (({ ready with tweakValid := false } : State).keyValid = true ∧ ({ ready with tweakValid := false } : State).tweakValid = false) ∧
    31 ≠ 32 ∧ (wordOp 0x20000014 = 4 ∧ wordRsv0 0x20000014 ≠ 0) ∧
    (wordOp 0x8000000020000005 = 5 ∧ wordRsv1 0x8000000020000005 ≠ 0) := by decide
/-- ContextCommandsFrame: each of the three completes somewhere, on an offset beside STATUS. -/
theorem witness_context_frame : (∃ t, exec (.rekey 32 0 0) odd = .next t) ∧ (∃ t, exec (.retweak 0 16 0) odd = .next t) ∧
    (∃ t, exec (.init 32 16 0) odd = .next t) ∧ (Instr.rekey 32 0 0).op = 0x1#4 ∧ (Instr.retweak 0 16 0).op = 0x2#4 ∧
    (Instr.init 32 16 0).op = 0x3#4 ∧ (0x10#8).toNat / 8 ≠ 1 := ⟨⟨_, rfl⟩, ⟨_, rfl⟩, ⟨_, rfl⟩, by decide⟩
/-- BlockCommandsFrame and BlockResultDependsOnContextAndInput: both succeed in two states that differ in KEYIN and DOUT; offsets at the edges. -/
theorem witness_block_frame :
    (nextOf (exec (.encrypt 0 0 32) ready)).map (fun t => t.err) = some false ∧
    (nextOf (exec (.encrypt 0 0 32) { ready with keyin := ⟨1, 2, 3, 4⟩, dout := ⟨9, 9, 9, 9⟩ })).map (fun t => t.err) = some false ∧
    (nextOf (exec (.decrypt 0 0 32) ready)).map (fun t => t.err) = some false ∧
    (Instr.encrypt 0 0 32).op = 0x4#4 ∧ (Instr.decrypt 0 0 32).op = 0x5#4 ∧
    ((0x5F#8).toNat / 8 ≠ 1 ∧ ¬ (0x60 ≤ (0x5F#8).toNat ∧ (0x5F#8).toNat < 0x80)) ∧
    ((0x80#8).toNat / 8 ≠ 1 ∧ ¬ (0x60 ≤ (0x80#8).toNat ∧ (0x80#8).toNat < 0x80)) := by decide
/-- The four statements of who writes what, and the two of the invariants: a step of each kind from a state no run reaches and from reset. -/
theorem witness_steps : (∃ t, step { odd with pending := [sd 0x00 0x2001] } = .next t ∧ t.ek ≠ odd.ek) ∧
    (∃ t, step { odd with pending := [sd 0x00 0x100002] } = .next t ∧ t.et ≠ odd.et) ∧
    (∃ t, step { odd with pending := [sd 0x48 1] } = .next t ∧ t.din ≠ odd.din) ∧
    (∃ t, step { odd with pending := [.reset] } = .next t ∧ t.keyValid = false) ∧
    (∃ t, step { State.reset with pending := [sd 0x00 0x102003] } = .next t ∧ t.keyValid = true) ∧
    State.reset.Inv ∧ State.reset.UnloadedIsReset :=
  ⟨⟨_, rfl, by decide⟩, ⟨_, rfl, by decide⟩, ⟨_, rfl, by decide⟩, ⟨_, rfl, rfl⟩, ⟨_, rfl, rfl⟩, by decide, by decide⟩
theorem witness_dout_changes : (nextOf (step { ready with pending := [sd 0x00 0x20000004] })).map (fun t => t.dout) ≠ some ready.dout := by
  decide +kernel
/-- HostReadByOffset, RepeatedAccessesAreIdempotent: an answered read, an answered operand write, a completed command, two offsets of other registers. -/
theorem witness_repeat : (∃ t, portRead 0x40 8 odd = .next t) ∧ (∃ t, portWrite 0x78 8 1 odd = .next t) ∧
    (∃ t, portWrite 0x08 8 1 odd = .next t) ∧ (∃ t, command 0x102003 odd = .next t) ∧ (0x08#8).toNat ≠ 0 ∧
    (0x7F#8).toNat / 8 ≠ (0x70#8).toNat / 8 := ⟨⟨_, rfl⟩, ⟨_, rfl⟩, ⟨_, rfl⟩, ⟨_, rfl⟩, by decide⟩
/-- AccessFaultExactlyOnBadAccess and CommandWriteNeverFaults: each kind of bad access alone, the last good offset, a step that faults. -/
theorem witness_accesses : 16 ≠ 8 ∧ (0x7F#8).toNat % 8 ≠ 0 ∧ (0x80 ≤ (0x80#8).toNat ∧ (0x80#8).toNat % 8 = 0) ∧
    ((0x78#8).toNat % 8 = 0 ∧ (0x78#8).toNat < 0x80) ∧
    (∃ f, step { odd with pending := [ld 0x80] } = .fault f) := ⟨by decide, by decide, by decide, by decide, ⟨_, rfl⟩⟩
/-- WindowIsLittleEndian: the first and the last register, the first and the last byte. -/
theorem witness_window_bytes : regAt 0x00 = some .cmd ∧ regAt 0x78 = some (.dout 3) ∧ 7 < 8 ∧ 0 < 8 ∧ 31 < 32 ∧ 15 < 16 := by decide
/-- WindowAddressesAndOffsets: the last address of the window, and the ones just outside it (below it where the base is not 0). -/
theorem witness_window_addresses : windowOffset (Config.engineBase + 255) = some 0xFF#8 ∧
    Config.engineBase + 0xFF < Config.engineBase + 256 := by
  constructor
  · unfold windowOffset
    rw [if_pos (by simp [Config.windowSize]), Nat.add_sub_cancel_left]
  · omega
/-- StepRunsDecodedCommand. -/
theorem witness_step_command : decode (leBytes 0x0000000000102003) = .ok (.init 32 16 0, []) ∧
    ({ odd with pending := [.access (.write 0x00 8 0x0000000000102003)] } : State).pending =
      [.access (.write 0x00 8 0x0000000000102003)] := by decide
/-- EventsAreServedInOrder, ResultIsReadableAtOnce, PseudoInstructionsExpand: states that present such events, the write's offset at both ends. -/
theorem witness_event_order : (∃ t, step { odd with pending := [ld 0x08, .reset] } = .next t) ∧ odd.pending = [] ∧
    ((0x30#8).toNat % 8 = 0 ∧ 0x30 ≤ (0x30#8).toNat ∧ (0x30#8).toNat < 0x60) ∧
    ((0x58#8).toNat % 8 = 0 ∧ 0x30 ≤ (0x58#8).toNat ∧ (0x58#8).toNat < 0x60) ∧
    (({ odd with pending := [sd 0x58 1, ld 0x58] } : State).pending = sd 0x58 1 :: ld 0x58 :: []) ∧
    (({ odd with pending := [sd 0x00 0, ld 0x08] } : State).pending = sd 0x00 0 :: ld 0x08 :: []) ∧
    (({ odd with pending := [sd 0x00 4, ld 0x78] } : State).pending = sd 0x00 4 :: ld (BitVec.ofNat 8 (0x60 + 8 * (3 : Fin 4).val)) :: []) ∧
    (({ odd with pending := pseudoLoadKey ⟨1, 2, 3, 4⟩ } : State).pending = pseudoLoadKey ⟨1, 2, 3, 4⟩ ++ []) ∧
    (({ odd with pending := pseudoLoadTweak ⟨1, 2⟩ } : State).pending = pseudoLoadTweak ⟨1, 2⟩ ++ []) ∧
    (({ odd with pending := pseudoLoadBlock ⟨1, 2, 3, 4⟩ } : State).pending = pseudoLoadBlock ⟨1, 2, 3, 4⟩ ++ []) ∧
    (({ odd with pending := pseudoReadStatus } : State).pending = pseudoReadStatus ++ []) :=
  ⟨⟨_, rfl⟩, rfl, by decide, by decide, rfl, rfl, rfl, rfl, rfl, rfl, rfl⟩
/-- ResetGivesEveryElementItsValue and ResetWinsOverAccessUnderWay. -/
theorem witness_resets : (({ odd with pending := [.reset, ld 0x08] } : State).pending = .reset :: [ld 0x08]) ∧
    (({ odd with pending := [.resetDuring (.read 0x40 8)] } : State).pending = .resetDuring (.read 0x40 8) :: []) := by decide
/-- StepsAnswerUnlessBadAccess: a good access, a reset, and nothing at all. -/
theorem witness_safe_next : ({ odd with pending := [ld 0x78] } : State).SafeNext ∧ ({ odd with pending := [.reset] } : State).SafeNext ∧
    odd.SafeNext := ⟨⟨rfl, by decide, by decide⟩, trivial, trivial⟩

end Sys2Proof.Tests
end

-- ==== Words: rotations as rotations of bit vectors, the counter as a word (00_scope.md R10) ====
section
namespace Sys2Proof

/-- Within R10's range of amounts, `rotl` is the library's rotation, whose bits the library knows. -/
theorem rotl_eq_rotateLeft (x : Word) {r : Nat} (hr : r < 64) : rotl x r = x.rotateLeft r :=
  (BitVec.rotateLeft_eq_rotateLeftAux_of_lt hr).symm

/-- Within R10's range of amounts, `rotr` is the library's rotation, whose bits the library knows. -/
theorem rotr_eq_rotateRight (x : Word) {r : Nat} (hr : r < 64) : rotr x r = x.rotateRight r :=
  (BitVec.rotateRight_eq_rotateRightAux_of_lt hr).symm

theorem rotl_toNat (x : Word) (r : Nat) :
    (rotl x r).toNat = ((x.toNat <<< r) ||| (x.toNat >>> (64 - r))) % 2 ^ 64 := by
  rw [rotl, BitVec.toNat_or, BitVec.toNat_shiftLeft, Nat.or_mod_two_pow, ← BitVec.toNat_ushiftRight, BitVec.toNat_mod_cancel]

theorem rotr_toNat (x : Word) (r : Nat) :
    (rotr x r).toNat = ((x.toNat >>> r) ||| (x.toNat <<< (64 - r))) % 2 ^ 64 := by
  rw [rotr, BitVec.toNat_or, BitVec.toNat_shiftLeft, Nat.or_mod_two_pow, ← BitVec.toNat_ushiftRight, BitVec.toNat_mod_cancel]

/-- The shift by all 64 bits that remains at amount 0 gives 0, so the definition needs no guard there. -/
@[simp] theorem rotl_zero (x : Word) : rotl x 0 = x := by
  rw [rotl, BitVec.shiftLeft_zero, BitVec.ushiftRight_eq_zero (Nat.le_refl 64), BitVec.or_zero]

@[simp] theorem rotr_zero (x : Word) : rotr x 0 = x := by
  rw [rotr, BitVec.ushiftRight_zero, BitVec.shiftLeft_eq_zero (Nat.le_refl 64), BitVec.or_zero]

/-- Bit `i` of the right rotation is bit `r + i` of its argument, or bit `i - (64 - r)` where that runs past bit 63; the
left rotation has put bit `i` of `x` at either place. -/
theorem rotr_rotl (x : Word) {r : Nat} (hr : r < 64) : rotr (rotl x r) r = x := by
  rw [rotr_eq_rotateRight _ hr, rotl_eq_rotateLeft _ hr]
  ext i hi
  simp only [BitVec.getElem_rotateRight hi, Nat.mod_eq_of_lt hr]
  split
  case isTrue hlow =>
    have hback : ¬ r + i < r := by omega
    simp [BitVec.getElem_rotateLeft, Nat.mod_eq_of_lt hr, hback]
  case isFalse hhigh =>
    have hwrap : i - (64 - r) < r := by omega
    have hback : 64 - r + (i - (64 - r)) = i := by omega
    simp [BitVec.getElem_rotateLeft, Nat.mod_eq_of_lt hr, hwrap, hback]

theorem ekAt_zero (i : Nat) : ekAt ⟨0, 0, 0, 0, 0⟩ i = 0 := by
  unfold ekAt
  generalize Fin.ofNat 5 i = j
  fin_cases j <;> rfl

/-- Under the all-zero expanded key, word 3 of a subkey is the counter alone (41_mix_network.md R146). -/
theorem subkey_zero_w3 (et : Words3) (s : Nat) : (subkey ⟨0, 0, 0, 0, 0⟩ et s).w3 = BitVec.ofNat 64 s := by
  change ekAt ⟨0, 0, 0, 0, 0⟩ (s + 3) + BitVec.ofNat 64 s = BitVec.ofNat 64 s
  rw [ekAt_zero, zero_add]

/-- Settles O1: the sums and the exclusive or by the library's facts on bit vectors, the rotations by their lemmas above,
the counter by its word being below 2^64. -/
theorem wordOperationsAreModular : Obligations.WordOperationsAreModular := by
  refine ⟨fun a b => ⟨BitVec.toNat_add a b, ?sub, fun _ => BitVec.getLsbD_xor⟩,
    fun x r _ _ => ⟨rotl_toNat x r, rotr_toNat x r⟩, fun x => ⟨rotl_zero x, rotr_zero x⟩,
    fun x r hr => rotr_rotl x (Nat.lt_succ_of_le hr), fun et s hs => ?counter⟩
  case sub => rw [BitVec.toNat_sub', Nat.add_sub_assoc b.isLt.le a.toNat]
  case counter => rw [subkey_zero_w3, BitVec.toNat_ofNat, Nat.mod_eq_of_lt (by omega)]

end Sys2Proof
end

-- ==== What a run, a step and a command can do to the engine, register group by register group ====
section
namespace Sys2Proof.Machine

section runs

theorem core_run_succ {M : Host.Core} {s t : M.State} {n : Nat} :
    M.run (n + 1) s = .next t ↔ ∃ u, M.step s = .next u ∧ M.run n u = .next t := by
  rw [Host.Core.run]
  cases M.step s with
  | next u => simp
  | fault r => simp
  | refused r => simp

theorem State.reaches_zero {s t : State} : s.Reaches 0 t ↔ s = t :=
  ⟨fun h => Host.Outcome.next.inj h, fun h => congrArg Host.Outcome.next h⟩

theorem State.reaches_succ {s t : State} {n : Nat} : s.Reaches (n + 1) t ↔ ∃ u, step s = .next u ∧ u.Reaches n t :=
  core_run_succ (M := core)

/-- What every step keeps holds after any number of steps. -/
theorem State.Reaches.invariant {P : State → Prop} (hstep : ∀ s t, P s → step s = .next t → P t)
    {s t : State} {n : Nat} (hs : P s) (h : s.Reaches n t) : P t := by
  induction n generalizing s with
  | zero => exact State.reaches_zero.1 h ▸ hs
  | succ n ih =>
    obtain ⟨u, hu, hrun⟩ := State.reaches_succ.1 h
    exact ih (hstep s u hs hu) hrun

/-- A predicate of the engine that reset meets and every step keeps holds in every state a host can drive the engine to. -/
theorem State.Reachable.invariant {P : Engine → Prop} (hreset : P Engine.reset)
    (hstep : ∀ s t : State, P s.toEngine → step s = .next t → P t.toEngine) {t : State} (h : t.Reachable) : P t.toEngine := by
  obtain ⟨s, n, hs, hrun⟩ := h
  exact hrun.invariant (P := fun u => P u.toEngine) hstep (hs ▸ hreset)

end runs

section commands
variable {i : Instr} {w : Word} {s t : State}

/-- No command refuses or faults (60_exceptions.md R202): each check that fails ends it with its error. -/
theorem exec_answers (i : Instr) (s : State) : ∃ t, exec i s = .next t := by
  cases i with
  | rekey k t b => simp only [exec, execRekey]; split <;> exact ⟨_, rfl⟩
  | retweak k t b => simp only [exec, execRetweak]; split <;> exact ⟨_, rfl⟩
  | init k t b =>
    simp only [exec, execInit]
    split
    · exact ⟨_, rfl⟩
    · split <;> exact ⟨_, rfl⟩
  | encrypt k t b => exact ⟨_, blockCommand_eq enc b s⟩
  | decrypt k t b => exact ⟨_, blockCommand_eq dec b s⟩

theorem command_answers (w : Word) (s : State) : ∃ t, command w s = .next t := by
  unfold command
  split
  · exact exec_answers _ s
  · exact ⟨_, rfl⟩

/-- Everything a command word can do to the state: fail with some error, or have one command's effect and succeed. -/
theorem command_effect (h : command w s = .next t) :
    (∃ e, t = s.fail e) ∨
    t = (s.loadKey (keySchedule s.keyin)).succeed ∨
    t = (s.loadTweak (tweakSchedule s.tweakin)).succeed ∨
    t = ((s.loadKey (keySchedule s.keyin)).loadTweak (tweakSchedule s.tweakin)).succeed ∨
    (s.contextReady = true ∧ ∃ b, t = (s.storeDout b).succeed) := by
  obtain ⟨i, -, hi⟩ | ⟨_, -, ht⟩ := command_cases h
  · obtain hf | ⟨-, ht⟩ | ⟨-, ht⟩ | ⟨-, ht⟩ | ⟨-, hr, ht⟩ | ⟨-, hr, ht⟩ := exec_cases hi
    · exact .inl hf
    · exact .inr (.inl ht)
    · exact .inr (.inr (.inl ht))
    · exact .inr (.inr (.inr (.inl ht)))
    · exact .inr (.inr (.inr (.inr ⟨hr, _, ht⟩)))
    · exact .inr (.inr (.inr (.inr ⟨hr, _, ht⟩)))
  · exact .inl ⟨_, ht⟩

/-- The expanded key after a command is the old one or the schedule of `KEYIN` (10_state.md R25). -/
theorem command_ek (h : command w s = .next t) : t.ek = s.ek ∨ t.ek = keySchedule s.keyin := by
  obtain ⟨_, rfl⟩ | rfl | rfl | rfl | ⟨-, _, rfl⟩ := command_effect h <;> simp

/-- The expanded tweak after a command is the old one or the schedule of `TWEAKIN` (10_state.md R26). -/
theorem command_et (h : command w s = .next t) : t.et = s.et ∨ t.et = tweakSchedule s.tweakin := by
  obtain ⟨_, rfl⟩ | rfl | rfl | rfl | ⟨-, _, rfl⟩ := command_effect h <;> simp

/-- A command writes both error fields: cleared, or set with one of the five errors (10_state.md R31). -/
theorem command_errorFields (h : command w s = .next t) :
    (t.err = false ∧ t.errcode = none) ∨ (t.err = true ∧ ∃ e, t.errcode = some e) := by
  obtain ⟨_, rfl⟩ | rfl | rfl | rfl | ⟨-, _, rfl⟩ := command_effect h <;> simp

theorem eq_frame_of_storeDout {b : Words4} (h : t = (s.storeDout b).succeed) :
    t = { s with dout := t.dout, err := t.err, errcode := t.errcode } := by
  subst h
  rfl

/-- A block command writes `DOUT` and the error fields alone (10_state.md R35). -/
theorem exec_block_frame (hop : i.op = 0x4#4 ∨ i.op = 0x5#4) (h : exec i s = .next t) :
    t = { s with dout := t.dout, err := t.err, errcode := t.errcode } := by
  obtain ⟨_, rfl⟩ | ⟨h1, -⟩ | ⟨h2, -⟩ | ⟨h3, -⟩ | ⟨-, -, ht⟩ | ⟨-, -, ht⟩ := exec_cases h
  · rfl
  · simp [h1] at hop
  · simp [h2] at hop
  · simp [h3] at hop
  · exact eq_frame_of_storeDout ht
  · exact eq_frame_of_storeDout ht

end commands

section steps
variable {s t : State}

/-- A step writes at most the operand registers of the engine, or it runs a command word, or it is a reset. -/
theorem step_engine_cases (h : step s = .next t) :
    t.toEngine = ({ s with keyin := t.keyin, tweakin := t.tweakin, din := t.din } : State).toEngine ∨
    (∃ w rest, s.pending = .access (.write 0x00#8 8 w) :: rest ∧
      command w ((s.consume rest).reply .writeDone) = .next t) ∨
    (s.ResetNext ∧ t.toEngine = Engine.reset) := by
  obtain ⟨-, rfl⟩ | ⟨_, _, _, -, -, rfl⟩ | ⟨rest, off, r, w, hp, hr, hw⟩ | ⟨_, hp, rfl⟩ | ⟨_, _, hp, rfl⟩ := step_cases h
  · exact .inl rfl
  · exact .inl rfl
  · obtain ⟨rfl, hc⟩ | ⟨-, rfl⟩ | ⟨_, -, rfl⟩ | ⟨_, -, rfl⟩ | ⟨_, -, rfl⟩ := writeReg_cases hw
    · exact .inr (.inl ⟨w, rest, regAt_eq_cmd hr ▸ hp, hc⟩)
    · exact .inl rfl
    · exact .inl rfl
    · exact .inl rfl
    · exact .inl rfl
  · exact .inr (.inr ⟨by simp [State.ResetNext, hp], rfl⟩)
  · exact .inr (.inr ⟨by simp [State.ResetNext, hp], rfl⟩)

/-- A step keeps the expanded key or writes a whole schedule output, reset's value being the schedule of zeros. -/
theorem step_ek (h : step s = .next t) : t.ek = s.ek ∨ ∃ k, t.ek = keySchedule k := by
  obtain hops | ⟨w, rest, -, hc⟩ | ⟨-, hreset⟩ := step_engine_cases h
  · exact .inl (by rw [hops])
  · exact (command_ek hc).imp id fun hk => ⟨_, hk⟩
  · exact .inr ⟨⟨0, 0, 0, 0⟩, by rw [hreset]; decide⟩

/-- A step keeps the expanded tweak or writes a whole schedule output, reset's value being the schedule of zeros. -/
theorem step_et (h : step s = .next t) : t.et = s.et ∨ ∃ x, t.et = tweakSchedule x := by
  obtain hops | ⟨w, rest, -, hc⟩ | ⟨-, hreset⟩ := step_engine_cases h
  · exact .inl (by rw [hops])
  · exact (command_et hc).imp id fun hx => ⟨_, hx⟩
  · exact .inr ⟨⟨0, 0⟩, by rw [hreset]; decide⟩

/-- An event that is no command and no reset leaves the error fields (10_state.md R31). -/
theorem step_keeps_errorFields (h : step s = .next t) (hreset : ¬ s.ResetNext) (hcmd : ∀ w, ¬ s.CommandNext w) :
    t.err = s.err ∧ t.errcode = s.errcode := by
  obtain hops | ⟨w, rest, hp, -⟩ | ⟨hr, -⟩ := step_engine_cases h
  · exact ⟨by rw [hops], by rw [hops]⟩
  · exact absurd ⟨rest, hp⟩ (hcmd w)
  · exact absurd hr hreset

end steps

end Sys2Proof.Machine
end

-- ==== The parities and the error fields as invariants of the step (10_state.md R31, R34) ====
section
namespace Sys2Proof.Machine
variable {s t : State}

/-- An expanded key that is a schedule output has the parity: its last word is defined by it (40_schedules.md R110). -/
theorem keyParity_of_ek_eq {e : Engine} {k : Words4} (h : e.ek = keySchedule k) : e.KeyParity := by
  unfold Engine.KeyParity
  rw [h]
  rfl

/-- An expanded tweak that is a schedule output has the parity: its last word is defined by it (40_schedules.md R112). -/
theorem tweakParity_of_et_eq {e : Engine} {x : Words2} (h : e.et = tweakSchedule x) : e.TweakParity := by
  unfold Engine.TweakParity
  rw [h]
  rfl

theorem step_keeps_keyParity (hs : s.KeyParity) (h : step s = .next t) : t.KeyParity := by
  obtain hek | ⟨k, hk⟩ := step_ek h
  · unfold Engine.KeyParity
    rwa [hek]
  · exact keyParity_of_ek_eq hk

theorem step_keeps_tweakParity (hs : s.TweakParity) (h : step s = .next t) : t.TweakParity := by
  obtain het | ⟨x, hx⟩ := step_et h
  · unfold Engine.TweakParity
    rwa [het]
  · exact tweakParity_of_et_eq hx

/-- No command error has code 0, and none has a code above 5 (60_exceptions.md R200). -/
theorem CmdError.code_bounds (e : CmdError) : 1 ≤ e.code.toNat ∧ e.code.toNat ≤ 5 := by
  cases e <;> decide

/-- Error fields as a command leaves them agree. -/
theorem errMatchesCode_of_command {w : Word} (h : command w s = .next t) : t.ErrMatchesCode := by
  unfold Engine.ErrMatchesCode
  obtain ⟨herr, hcode⟩ | ⟨herr, e, hcode⟩ := command_errorFields h
  · simp [herr, hcode, errcodeBits]
  · have hne : e.code ≠ 0 := by cases e <;> decide
    simpa [herr, hcode, errcodeBits] using hne

theorem step_keeps_errMatchesCode (hs : s.ErrMatchesCode) (h : step s = .next t) : t.ErrMatchesCode := by
  obtain hops | ⟨w, rest, -, hc⟩ | ⟨-, hreset⟩ := step_engine_cases h
  · rw [hops]
    exact hs
  · exact errMatchesCode_of_command hc
  · rw [hreset]
    decide

/-- Settles O58: a step keeps EK and ET or writes a whole schedule output, whose parity is its last word's definition, so
the step keeps both parities, and the induction over the run carries them from reset. -/
theorem parityHoldsInEveryReachableState : Obligations.ParityHoldsInEveryReachableState :=
  ⟨fun _ ht => ⟨ht.invariant (P := Engine.KeyParity) (by decide) fun _ _ => step_keeps_keyParity,
      ht.invariant (P := Engine.TweakParity) (by decide) fun _ _ => step_keeps_tweakParity⟩,
    by decide, by decide, by decide, by decide, fun _ _ h => ⟨step_ek h, step_et h⟩⟩

/-- Settles O26: the command's own writes, the events that run no command, and the induction over the run. -/
theorem errorFieldsDescribeLastCommand : Obligations.ErrorFieldsDescribeLastCommand := by
  refine ⟨fun w s => ?command, fun _ _ => step_keeps_errorFields,
    fun _ ht => ht.invariant (P := Engine.ErrMatchesCode) (by decide) fun _ _ => step_keeps_errMatchesCode⟩
  case command =>
    obtain ⟨t, ht⟩ := command_answers w s
    refine ⟨t, ht, (command_errorFields ht).imp ?_ ?_⟩
    · rintro ⟨herr, hcode⟩
      exact ⟨herr, by rw [hcode]; rfl⟩
    · rintro ⟨herr, e, hcode⟩
      rw [hcode]
      exact ⟨herr, e.code_bounds⟩

end Sys2Proof.Machine
end

-- ==== The window's bytes: which register each shows, and the frame of the block commands (10_state.md R35) ====
section
namespace Sys2Proof.Machine

/-- A byte of the window depends on the one register it belongs to (20_memory.md R53). -/
theorem windowByte_congr {s t : State} {off : BitVec 8}
    (h : ∀ r, regAt (off &&& 0xF8#8) = some r → t.regValue r = s.regValue r) : t.windowByte off = s.windowByte off := by
  unfold State.windowByte
  cases hr : regAt (off &&& 0xF8#8) with
  | none => rfl
  | some r => simp [h r hr]

/-- The bytes of `STATUS` are at offsets 8 to 15 (20_memory.md R52). -/
theorem div_eq_one_of_regAt_status {off : BitVec 8} : regAt (off &&& 0xF8#8) = some .status → off.toNat / 8 = 1 := by
  revert off; decide

/-- The bytes of `DOUT` are at offsets `0x60` to `0x7F` (20_memory.md R52). -/
theorem bounds_of_regAt_dout {off : BitVec 8} {i : Fin 4} :
    regAt (off &&& 0xF8#8) = some (.dout i) → 0x60 ≤ off.toNat ∧ off.toNat < 0x80 := by
  revert off i; decide

/-- Settles O33: the state a block command leaves is the old one with `DOUT` and the error fields replaced, and a byte
outside `STATUS` and `DOUT` belongs to a register that is neither. -/
theorem blockCommandsFrame : Obligations.BlockCommandsFrame := by
  intro i s t hop h
  have hframe := exec_block_frame hop h
  refine ⟨?ek, ?et, ?keyin, ?tweakin, ?din, ?keyValid, ?tweakValid, hframe, fun off hstatus hdout => windowByte_congr ?bytes⟩
  case bytes =>
    intro r hr
    cases r with
    | status => exact absurd (div_eq_one_of_regAt_status hr) hstatus
    | dout j => exact absurd (bounds_of_regAt_dout hr) hdout
    | _ => rw [hframe]; rfl
  all_goals rw [hframe]

end Sys2Proof.Machine
end

-- ==== Host accesses by offset: the register map in ranges, the answered and the faulting access (20_memory.md R52 to R58) ====
section
namespace Sys2Proof.Machine

/-- The register map at an aligned offset, range by range of the offset's number (20_memory.md R52). -/
theorem regAt_of_aligned {off : BitVec 8} : off.toNat % 8 = 0 → regAt off =
    if off.toNat = 0x00 then some .cmd
    else if off.toNat = 0x08 then some .status
    else if off.toNat ≤ 0x28 then some (.keyin (Fin.ofNat 4 ((off.toNat - 0x10) / 8)))
    else if off.toNat ≤ 0x38 then some (.tweakin (Fin.ofNat 2 ((off.toNat - 0x30) / 8)))
    else if off.toNat ≤ 0x58 then some (.din (Fin.ofNat 4 ((off.toNat - 0x40) / 8)))
    else if off.toNat ≤ 0x78 then some (.dout (Fin.ofNat 4 ((off.toNat - 0x60) / 8)))
    else none := by
  revert off; decide

theorem goodForm_eq_false_iff (off : BitVec 8) (size : Nat) :
    goodForm off size = false ↔ size ≠ 8 ∨ off.toNat % 8 ≠ 0 := by
  rw [← Bool.not_eq_true, goodForm_iff, not_and_or]

section accesses
variable {off : BitVec 8} {size : Nat} {w : Word} {s t : State} {r : Reg}

/-- A read in a form the port does not take faults with its own address (20_memory.md R55). -/
theorem portRead_of_bad_form (h : size ≠ 8 ∨ off.toNat % 8 ≠ 0) :
    portRead off size s = .fault (.accessFault (Config.engineBase + off.toNat)) := by
  simp [portRead, (goodForm_eq_false_iff off size).2 h, raiseAccessFault, hostAddress]

/-- A write in a form the port does not take faults with its own address (20_memory.md R55). -/
theorem portWrite_of_bad_form (h : size ≠ 8 ∨ off.toNat % 8 ≠ 0) :
    portWrite off size w s = .fault (.accessFault (Config.engineBase + off.toNat)) := by
  simp [portWrite, (goodForm_eq_false_iff off size).2 h, raiseAccessFault, hostAddress]

/-- A read in the port's form answers with the register at its offset, or faults where there is none. -/
theorem portRead_of_good_form (h : goodForm off size = true) : portRead off size s =
    (regAt off).elim (.fault (.accessFault (Config.engineBase + off.toNat)))
      fun r => .next (s.reply (.readData (s.readReg r))) := by
  rw [portRead, if_pos h]
  cases regAt off <;> rfl

/-- A write in the port's form writes the register at its offset, or faults where there is none. -/
theorem portWrite_of_good_form (h : goodForm off size = true) : portWrite off size w s =
    (regAt off).elim (.fault (.accessFault (Config.engineBase + off.toNat)))
      fun r => writeReg r w (s.reply .writeDone) := by
  rw [portWrite, if_pos h]
  cases regAt off <;> rfl

theorem portRead_keeps_engine (h : portRead off size s = .next t) : t.toEngine = s.toEngine := by
  obtain ⟨_, -, -, -, rfl⟩ := portRead_cases h
  rfl

end accesses

/-- Settles O42: a bad form faults; a good form answers with the register of the offset's range, or faults past the last. -/
theorem hostReadByOffset : Obligations.HostReadByOffset := by
  refine fun off size s => ⟨?answer, fun t => portRead_keeps_engine⟩
  case answer =>
    by_cases hbad : size ≠ 8 ∨ off.toNat % 8 ≠ 0
    · rw [if_pos hbad, portRead_of_bad_form hbad]
    · obtain ⟨rfl, haligned⟩ : size = 8 ∧ off.toNat % 8 = 0 := by simpa only [not_or, not_not] using hbad
      rw [if_neg hbad, portRead_of_good_form ((goodForm_iff off 8).2 ⟨rfl, haligned⟩), regAt_of_aligned haligned]
      split_ifs <;> rfl

/-- Settles O43: a bad form faults; a good form writes the register of the offset's range, or faults past the last. -/
theorem hostWriteByOffset : Obligations.HostWriteByOffset := by
  intro off size w s
  by_cases hbad : size ≠ 8 ∨ off.toNat % 8 ≠ 0
  · rw [if_pos hbad, portWrite_of_bad_form hbad]
  · obtain ⟨rfl, haligned⟩ : size = 8 ∧ off.toNat % 8 = 0 := by simpa only [not_or, not_not] using hbad
    rw [if_neg hbad, portWrite_of_good_form ((goodForm_iff off 8).2 ⟨rfl, haligned⟩), regAt_of_aligned haligned]
    split_ifs <;> rfl

end Sys2Proof.Machine
end

-- ==== The window's byte strings, and the words read back from them (20_memory.md R53) ====
section
namespace Sys2Proof

/-- The little-endian bytes of `n` words, byte `i` being byte `i mod 8` of word `i / 8`, read back as those words. -/
theorem leWords_map_byteOf (word : Nat → Word) (n : Nat) :
    leWords ((List.range (8 * n)).map fun i => byteOf (word (i / 8)) (i % 8)) n = (List.range n).map word := by
  induction n generalizing word with
  | zero => rfl
  | succ n ih =>
    have hbytes : ((List.range (8 * (n + 1))).map fun i => byteOf (word (i / 8)) (i % 8)) =
        leBytes (word 0) ++ (List.range (8 * n)).map fun i => byteOf (word (i / 8 + 1)) (i % 8) := by
      rw [Nat.mul_succ, Nat.add_comm, List.range_add, List.map_append, List.map_map]
      congr 1
      refine List.map_congr_left fun i _ => ?_
      rw [Function.comp_apply, Nat.add_mod_left, Nat.add_div_left i (by decide)]
    have hlen : (leBytes (word 0)).length = 8 := rfl
    rw [leWords, hbytes, List.take_left' hlen, List.drop_left' hlen, leWord_leBytes, ih fun k => word (k + 1),
      List.range_succ_eq_map, List.map_cons, List.map_map]
    rfl

end Sys2Proof

namespace Sys2Proof.Machine

/-- The mask of the byte view rounds an offset down to a multiple of 8. -/
theorem toNat_and_F8 (off : BitVec 8) : (off &&& 0xF8#8).toNat = 8 * (off.toNat / 8) := by
  revert off; decide

section bytes
variable {s : State} {base n : Nat} {reg : Nat → Reg}

/-- The byte at offset `off + j` of the register at `off` is its byte `j` (20_memory.md R53). -/
theorem windowByte_of_regAt {off : BitVec 8} {r : Reg} {j : Nat} (hr : regAt off = some r) (hj : j < 8) :
    s.windowByte (off + BitVec.ofNat 8 j) = some (byteOf (s.regValue r) j) := by
  obtain ⟨haligned, hmapped⟩ := (regAt_isSome_iff off).1 (Option.isSome_of_eq_some hr)
  have hoff : (off + BitVec.ofNat 8 j).toNat = off.toNat + j := by
    rw [BitVec.toNat_add, BitVec.toNat_ofNat]
    omega
  have hmask : (off + BitVec.ofNat 8 j) &&& 0xF8#8 = off := by
    apply BitVec.eq_of_toNat_eq
    rw [toNat_and_F8, hoff]
    omega
  have hbyte : (off.toNat + j) % 8 = j := by omega
  rw [State.windowByte, hmask, hr, hoff, hbyte, Option.map_some]

/-- Byte `i` of `n` registers that stand one after the other from `base` is byte `i mod 8` of register `i / 8`. -/
theorem windowByte_of_array (hreg : ∀ k < n, regAt (BitVec.ofNat 8 (base + 8 * k)) = some (reg k)) {i : Nat}
    (hi : i < 8 * n) : s.windowByte (BitVec.ofNat 8 (base + i)) = some (byteOf (s.regValue (reg (i / 8))) (i % 8)) := by
  have hsplit : base + i = base + 8 * (i / 8) + i % 8 := by omega
  rw [hsplit, BitVec.ofNat_add]
  exact windowByte_of_regAt (hreg _ (by omega)) (Nat.mod_lt _ (by decide))

/-- The words of those registers are got back from the window's bytes. -/
theorem leWords_window_of_array (hreg : ∀ k < n, regAt (BitVec.ofNat 8 (base + 8 * k)) = some (reg k)) :
    leWords ((List.range (8 * n)).filterMap fun i => s.windowByte (BitVec.ofNat 8 (base + i))) n =
      (List.range n).map fun k => s.regValue (reg k) := by
  rw [← leWords_map_byteOf, ← List.filterMap_eq_map']
  congr 1
  exact List.filterMap_congr fun i hi => windowByte_of_array hreg (List.mem_range.1 hi)

end bytes

theorem regAt_keyin : ∀ k < 4, regAt (BitVec.ofNat 8 (0x10 + 8 * k)) = some (.keyin (Fin.ofNat 4 k)) := by decide

theorem regAt_tweakin : ∀ k < 2, regAt (BitVec.ofNat 8 (0x30 + 8 * k)) = some (.tweakin (Fin.ofNat 2 k)) := by decide

theorem regAt_din : ∀ k < 4, regAt (BitVec.ofNat 8 (0x40 + 8 * k)) = some (.din (Fin.ofNat 4 k)) := by decide

theorem regAt_dout : ∀ k < 4, regAt (BitVec.ofNat 8 (0x60 + 8 * k)) = some (.dout (Fin.ofNat 4 k)) := by decide

/-- Settles O46: the byte view of one register, then of each array of registers, then the words of the array from its bytes. -/
theorem windowIsLittleEndian : Obligations.WindowIsLittleEndian := fun _ =>
  ⟨fun _ _ _ => windowByte_of_regAt,
    fun _ => windowByte_of_array regAt_keyin, fun _ => windowByte_of_array regAt_tweakin,
    fun _ => windowByte_of_array regAt_din, fun _ => windowByte_of_array regAt_dout,
    leWords_window_of_array regAt_keyin, leWords_window_of_array regAt_tweakin, leWords_window_of_array regAt_din⟩

end Sys2Proof.Machine
end

-- ==== Repeated accesses: the frame of a register write, and what a second identical access leaves (20_memory.md R60) ====
section
namespace Sys2Proof.Machine

/-- Where a register stands in the window (20_memory.md R52). -/
def Reg.offset : Reg → BitVec 8
  | .cmd => 0x00
  | .status => 0x08
  | .keyin i => BitVec.ofNat 8 (0x10 + 8 * i.val)
  | .tweakin i => BitVec.ofNat 8 (0x30 + 8 * i.val)
  | .din i => BitVec.ofNat 8 (0x40 + 8 * i.val)
  | .dout i => BitVec.ofNat 8 (0x60 + 8 * i.val)

/-- The register map and the registers' offsets agree, so no register stands at two offsets. -/
theorem eq_offset_of_regAt {off : BitVec 8} {r : Reg} (h : regAt off = some r) : off = r.offset := by
  have hall : ∀ o, (regAt o).all (fun r => o = r.offset) = true := by decide
  simpa [h] using hall off

section writes
variable {r : Reg} {w : Word} {s t : State}

theorem State.reply_of_answer {a : Answer} (h : t.answer = some a) : t.reply a = t := by
  unfold State.reply
  rw [← h]

/-- A write of a register other than `CMD` leaves every register but that one, and both expansions (20_memory.md R58). -/
theorem writeReg_frame (hcmd : r ≠ .cmd) (h : writeReg r w s = .next t) :
    t.ek = s.ek ∧ t.et = s.et ∧ t.dout = s.dout ∧ t.status = s.status ∧ t.answer = s.answer ∧
      ∀ q, q ≠ r → t.regValue q = s.regValue q := by
  obtain ⟨hr, -⟩ | ⟨-, rfl⟩ | ⟨i, rfl, rfl⟩ | ⟨i, rfl, rfl⟩ | ⟨i, rfl, rfl⟩ := writeReg_cases h
  · exact absurd hr hcmd
  · exact ⟨rfl, rfl, rfl, rfl, rfl, fun _ _ => rfl⟩
  · refine ⟨rfl, rfl, rfl, rfl, rfl, fun q hq => ?_⟩
    cases q with
    | keyin j => exact (Words4.get_set _ i j w).trans (if_neg fun hj => hq (congrArg Reg.keyin hj))
    | _ => rfl
  · refine ⟨rfl, rfl, rfl, rfl, rfl, fun q hq => ?_⟩
    cases q with
    | tweakin j => exact (Words2.get_set _ i j w).trans (if_neg fun hj => hq (congrArg Reg.tweakin hj))
    | _ => rfl
  · refine ⟨rfl, rfl, rfl, rfl, rfl, fun q hq => ?_⟩
    cases q with
    | din j => exact (Words4.get_set _ i j w).trans (if_neg fun hj => hq (congrArg Reg.din hj))
    | _ => rfl

/-- The same word written again to a register other than `CMD` changes nothing more. -/
theorem writeReg_idempotent (hcmd : r ≠ .cmd) (h : writeReg r w s = .next t) : writeReg r w t = .next t := by
  obtain ⟨hr, -⟩ | ⟨rfl | ⟨i, rfl⟩, rfl⟩ | ⟨i, rfl, rfl⟩ | ⟨i, rfl, rfl⟩ | ⟨i, rfl, rfl⟩ := writeReg_cases h
  · exact absurd hr hcmd
  · rfl
  · rfl
  · simp [writeReg, State.writeKeyin, Words4.set_set]
  · simp [writeReg, State.writeTweakin, Words2.set_set]
  · simp [writeReg, State.writeDin, Words4.set_set]

end writes

section commands
variable {i : Instr} {w : Word} {s t : State}

/-- A block command leaves its context and `DIN`, so running it again makes the same checks and the same result. -/
theorem blockCommand_idempotent {f : Words5 → Words3 → Words4 → Words4} {blen : Nat}
    (h : blockCommand f blen s = .next t) : blockCommand f blen t = .next t := by
  unfold blockCommand at h
  split_ifs at h with hready hblen <;> cases h
  · exact (if_neg (not_not_intro hready)).trans (if_pos hblen)
  · exact (if_neg (not_not_intro hready)).trans (if_neg hblen)
  · exact if_pos hready

/-- A command run again at once makes the same checks and writes the same values, since it writes none of its own operands. -/
theorem exec_idempotent (h : exec i s = .next t) : exec i t = .next t := by
  cases i with
  | rekey klen tlen blen =>
    simp only [exec, execRekey] at h ⊢
    split_ifs at h ⊢ <;> cases h <;> rfl
  | retweak klen tlen blen =>
    simp only [exec, execRetweak] at h ⊢
    split_ifs at h ⊢ <;> cases h <;> rfl
  | init klen tlen blen =>
    simp only [exec, execInit] at h ⊢
    split_ifs at h ⊢ <;> cases h <;> rfl
  | encrypt klen tlen blen => exact blockCommand_idempotent (f := enc) h
  | decrypt klen tlen blen => exact blockCommand_idempotent (f := dec) h

/-- A command word run again at once leaves the same state, an illegal one included. -/
theorem command_idempotent (h : command w s = .next t) : command w t = .next t := by
  obtain ⟨i, hw, hi⟩ | ⟨e, hw, rfl⟩ := command_cases h
  · simp only [command, hw]
    exact exec_idempotent hi
  · simp only [command, hw]
    rfl

end commands

/-- Settles O48: a write away from offset 0 is of a register other than `CMD`, whose frame covers every byte of the other
registers, and whose acknowledgement is already the last answer when it is repeated. -/
theorem repeatedAccessesAreIdempotent : Obligations.RepeatedAccessesAreIdempotent := by
  refine ⟨fun _ _ _ _ => portRead_keeps_engine, fun off size w s t h hoff => ?write, fun _ _ _ => command_idempotent⟩
  case write =>
    obtain ⟨r, rfl, haligned, hr, hw⟩ := portWrite_cases h
    have hcmd : r ≠ .cmd := by
      rintro rfl
      exact hoff (congrArg BitVec.toNat (regAt_eq_cmd hr))
    obtain ⟨hek, het, hdout, hstatus, hanswer, hregs⟩ := writeReg_frame hcmd hw
    refine ⟨hek, het, hdout, hstatus, fun o ho => windowByte_congr fun q hq => hregs q ?other, ?again⟩
    case other =>
      rintro rfl
      have hsame : o &&& 0xF8#8 = off := (eq_offset_of_regAt hq).trans (eq_offset_of_regAt hr).symm
      have hmask := toNat_and_F8 o
      rw [hsame] at hmask
      omega
    case again =>
      rw [portWrite_of_good_form ((goodForm_iff off 8).2 ⟨rfl, haligned⟩), hr, Option.elim_some,
        State.reply_of_answer hanswer]
      exact writeReg_idempotent hcmd hw

end Sys2Proof.Machine
end

-- ==== Command words by their fields: what decodes, to which command, and what it runs (30_encoding.md R80 to R86) ====
section
namespace Sys2Proof

section decoding
variable {w : Word} {i : Instr} {op : BitVec 4} {k t b : Nat}

/-- The opcodes of the five commands are 1 to 5 (30_encoding.md R84). -/
theorem op_bounds (i : Instr) : 1 ≤ i.op.toNat ∧ i.op.toNat ≤ 5 := by
  cases i <;> simp [Instr.op]

/-- The opcode map keeps the opcode and all three lengths, so it is the inverse of the fields of a command. -/
theorem decodeOp_eq_ok_iff : decodeOp op k t b = .ok i ↔ i.op = op ∧ i.klen = k ∧ i.tlen = t ∧ i.blen = b := by
  constructor
  · intro h
    unfold decodeOp at h
    split at h <;> cases h <;> exact ⟨rfl, rfl, rfl, rfl⟩
  · rintro ⟨rfl, rfl, rfl, rfl⟩
    cases i <;> rfl

/-- The opcode map has a command for 1 to 5 alone, whatever the lengths (30_encoding.md R84, R85). -/
theorem exists_decodeOp_iff : (∃ i, decodeOp op k t b = .ok i) ↔ 1 ≤ op.toNat ∧ op.toNat ≤ 5 := by
  constructor
  · rintro ⟨i, hi⟩
    exact (decodeOp_eq_ok_iff.1 hi).1 ▸ op_bounds i
  · rintro ⟨hlow, hhigh⟩
    obtain rfl | rfl | rfl | rfl | rfl : op = 0x1#4 ∨ op = 0x2#4 ∨ op = 0x3#4 ∨ op = 0x4#4 ∨ op = 0x5#4 := by bv_omega
    all_goals exact ⟨_, rfl⟩

/-- A word decodes when both reserved fields are 0 and its opcode has a command, which gets its three length fields
(30_encoding.md R80, R81). -/
theorem decodeWord_eq_ok_iff : decodeWord w = .ok i ↔ rsv0Field w = 0 ∧ rsv1Field w = 0 ∧
    decodeOp (opField w) (klenField w) (tlenField w) (blenField w) = .ok i := by
  unfold decodeWord
  split_ifs with h0 h1 <;> simp_all

theorem rsv0Field_eq_zero_iff : rsv0Field w = 0 ↔ w.toNat / 16 % 16 = 0 := by
  rw [← rsv0Field_toNat, ← BitVec.toNat_inj]; rfl

theorem rsv1Field_eq_zero_iff : rsv1Field w = 0 ↔ w.toNat / 2 ^ 32 = 0 := by
  rw [← rsv1Field_toNat, ← BitVec.toNat_inj]; rfl

/-- A decoded command has the fields of its word, whose reserved fields are 0 (30_encoding.md R81). -/
theorem fields_of_decodeWord (h : decodeWord w = .ok i) :
    i.op.toNat = w.toNat % 16 ∧ w.toNat / 16 % 16 = 0 ∧ i.klen = w.toNat / 2 ^ 8 % 256 ∧
      i.tlen = w.toNat / 2 ^ 16 % 256 ∧ i.blen = w.toNat / 2 ^ 24 % 256 ∧ w.toNat / 2 ^ 32 = 0 := by
  obtain ⟨hrsv0, hrsv1, hdecode⟩ := decodeWord_eq_ok_iff.1 h
  obtain ⟨hop, hklen, htlen, hblen⟩ := decodeOp_eq_ok_iff.1 hdecode
  exact ⟨hop ▸ opField_toNat w, rsv0Field_eq_zero_iff.1 hrsv0, hklen.trans (klenField_eq w),
    htlen.trans (tlenField_eq w), hblen.trans (blenField_eq w), rsv1Field_eq_zero_iff.1 hrsv1⟩

/-- The mask of 30_encoding.md R86 keeps both reserved fields and the opcode, and clears the three lengths. -/
theorem and_opcodeMask (w : Word) : w &&& 0xFFFFFFFF000000FF#64 = rsv1Field w ++ 0#24 ++ rsv0Field w ++ opField w := by
  have hmask : 0xFFFFFFFF000000FF#64 = BitVec.allOnes 32 ++ 0#24 ++ BitVec.allOnes 4 ++ BitVec.allOnes 4 := by decide
  have hfields : w = rsv1Field w ++ w.extractLsb' 8 24 ++ rsv0Field w ++ opField w := by
    apply BitVec.eq_of_toNat_eq
    simp only [toNat_append_eq, rsv1Field_toNat, rsv0Field_toNat, opField_toNat, BitVec.extractLsb'_toNat,
      Nat.shiftRight_eq_div_pow]
    omega
  calc w &&& 0xFFFFFFFF000000FF#64
    _ = (rsv1Field w ++ w.extractLsb' 8 24 ++ rsv0Field w ++ opField w) &&&
        (BitVec.allOnes 32 ++ 0#24 ++ BitVec.allOnes 4 ++ BitVec.allOnes 4) := by rw [← hfields, hmask]
    _ = rsv1Field w ++ 0#24 ++ rsv0Field w ++ opField w := by
      simp only [BitVec.and_append, BitVec.and_allOnes, BitVec.and_zero]

/-- A word matches an opcode under the mask when that is its opcode and both reserved fields are 0 (30_encoding.md R86). -/
theorem and_opcodeMask_eq_iff : w &&& 0xFFFFFFFF000000FF#64 = op.setWidth 64 ↔
    w.toNat % 16 = op.toNat ∧ w.toNat / 16 % 16 = 0 ∧ w.toNat / 2 ^ 32 = 0 := by
  have hop := op.isLt
  have hw := w.isLt
  rw [and_opcodeMask, ← BitVec.toNat_inj]
  simp only [toNat_append_eq, rsv1Field_toNat, rsv0Field_toNat, opField_toNat, BitVec.toNat_setWidth, BitVec.toNat_ofNat]
  omega

end decoding

end Sys2Proof

namespace Sys2Proof.Machine

/-- Settles O16: the fields of the decoded command are those of its word, so each length fits its 8 bits, and the word is
the sum of its fields. -/
theorem encodeOfDecodedWord : Obligations.EncodeOfDecodedWord := by
  intro w i h
  obtain ⟨hop, hrsv0, hklen, htlen, hblen, hrsv1⟩ := fields_of_decodeWord h
  refine ⟨(Instr.wf_iff i).2 (by omega), BitVec.eq_of_toNat_eq ?word, hop, hrsv0, hklen, htlen, hblen, hrsv1⟩
  case word =>
    rw [encodeWord_toNat]
    omega

/-- The words that decode are the legal ones (30_encoding.md R85). -/
theorem exists_decodeWord_iff {w : Word} : (∃ i, decodeWord w = .ok i) ↔ ¬ IllegalWord w := by
  simp only [decodeWord_eq_ok_iff, exists_and_left, exists_decodeOp_iff, opField_toNat, rsv0Field_eq_zero_iff,
    rsv1Field_eq_zero_iff, IllegalWord, wordOp, wordRsv0, wordRsv1]
  omega

/-- Settles O18: the mask shows the opcode and the reserved fields, which decide whether a word decodes and to which
opcode; the canonical words by computing them. -/
theorem canonicalWordsAndMask : Obligations.CanonicalWordsAndMask := by
  refine ⟨fun w op => ⟨?matched, ?decodes⟩, by decide, by decide, by decide, by decide, by decide⟩
  case matched =>
    rintro ⟨i, hi, rfl⟩
    obtain ⟨hop, hrsv0, -, -, -, hrsv1⟩ := fields_of_decodeWord hi
    exact ⟨and_opcodeMask_eq_iff.2 ⟨hop.symm, hrsv0, hrsv1⟩, op_bounds i⟩
  case decodes =>
    rintro ⟨hmatch, hbounds⟩
    obtain ⟨hop, hrsv0, hrsv1⟩ := and_opcodeMask_eq_iff.1 hmatch
    have hlegal : ¬ IllegalWord w := by simp only [IllegalWord, wordOp, wordRsv0, wordRsv1]; omega
    obtain ⟨i, hi⟩ := exists_decodeWord_iff.2 hlegal
    exact ⟨i, hi, BitVec.eq_of_toNat_eq ((fields_of_decodeWord hi).1.trans hop)⟩

section commands
variable {w : Word} {i j : Instr} {op : BitVec 4} {k t b k' t' b' : Nat}

theorem command_of_decodeWord (h : decodeWord w = .ok i) (s : State) : command w s = exec i s := by
  rw [command, h]

theorem command_of_illegalWord (h : IllegalWord w) (s : State) : command w s = .next (s.fail .invalidCommand) := by
  cases hw : decodeWord w with
  | error e => rw [command, hw]
  | ok i => exact absurd h (exists_decodeWord_iff.1 ⟨i, hw⟩)

/-- A command's meaning depends on the lengths it consumes alone (30_encoding.md R83): KLEN for opcodes 1 and 3, TLEN for
2 and 3, BLEN for 4 and 5. -/
theorem exec_congr_of_decodeOp (hi : decodeOp op k t b = .ok i) (hj : decodeOp op k' t' b' = .ok j)
    (hklen : op.toNat = 1 ∨ op.toNat = 3 → k = k') (htlen : op.toNat = 2 ∨ op.toNat = 3 → t = t')
    (hblen : op.toNat = 4 ∨ op.toNat = 5 → b = b') (s : State) : exec i s = exec j s := by
  unfold decodeOp at hi
  split at hi <;> cases hi <;> cases hj
  case h_1 => cases hklen (.inl rfl); rfl
  case h_2 => cases htlen (.inl rfl); rfl
  case h_3 => cases hklen (.inr rfl); cases htlen (.inr rfl); rfl
  case h_4 => cases hblen (.inl rfl); rfl
  case h_5 => cases hblen (.inr rfl); rfl

end commands

/-- Settles O21: an illegal word does not decode, so it fails; a legal one decodes to a command of its own opcode. -/
theorem illegalWordsAreInvalidCommand : Obligations.IllegalWordsAreInvalidCommand := by
  refine fun w s => ⟨fun h => command_of_illegalWord h s, fun h => ?legal⟩
  case legal =>
    obtain ⟨i, hi⟩ := exists_decodeWord_iff.2 h
    exact ⟨i, hi, (fields_of_decodeWord hi).1, command_of_decodeWord hi s⟩

/-- Settles O22: the two words are both illegal and fail alike, or both decode, under one opcode, to commands that agree on
the lengths they consume. -/
theorem unconsumedLengthsAreIgnored : Obligations.UnconsumedLengthsAreIgnored := by
  intro w w' s hop hrsv0 hrsv1 hklen htlen hblen
  have hsame : IllegalWord w ↔ IllegalWord w' := by rw [IllegalWord, IllegalWord, hop, hrsv0, hrsv1]
  by_cases hillegal : IllegalWord w
  · rw [command_of_illegalWord hillegal, command_of_illegalWord (hsame.1 hillegal)]
  · obtain ⟨i, hi⟩ := exists_decodeWord_iff.2 hillegal
    obtain ⟨j, hj⟩ := exists_decodeWord_iff.2 (mt hsame.2 hillegal)
    rw [command_of_decodeWord hi, command_of_decodeWord hj]
    obtain ⟨-, -, hopi⟩ := decodeWord_eq_ok_iff.1 hi
    obtain ⟨-, -, hopj⟩ := decodeWord_eq_ok_iff.1 hj
    have hopField : opField w' = opField w := BitVec.eq_of_toNat_eq (by rw [opField_toNat, opField_toNat]; exact hop.symm)
    simp only [wordOp, wordKlen, wordTlen, wordBlen, ← opField_toNat, ← klenField_eq, ← tlenField_eq, ← blenField_eq]
      at hklen htlen hblen
    exact exec_congr_of_decodeOp hopi (hopField ▸ hopj) hklen htlen hblen s

end Sys2Proof.Machine
end

-- ==== The schedules' parity words, and the context commands by their lengths (40_schedules.md R110 to R116) ====
section
namespace Sys2Proof

/-- The key parity word is the constant against the raw key's own parity, so the two cancel when they agree (R110). -/
theorem keySchedule_w4 (k : Words4) : (keySchedule k).w4 = c240 ^^^ (k.w0 ^^^ k.w1 ^^^ k.w2 ^^^ k.w3) := by
  simp only [keySchedule, BitVec.xor_assoc]

end Sys2Proof

namespace Sys2Proof.Machine

/-- Settles O14: both schedules are defined by the words the rules list, and `C240` is the literal. -/
theorem schedulesAddParityWords : Obligations.SchedulesAddParityWords :=
  ⟨rfl, fun _ _ _ _ => rfl, fun _ _ => rfl⟩

section contextCommands
variable {klen tlen : Nat} {w : Word}

theorem exec_rekey_of_required (tlen blen : Nat) (s : State) :
    exec (.rekey 32 tlen blen) s = .next ((s.loadKey (keySchedule s.keyin)).succeed) := rfl

theorem exec_rekey_of_klen_ne (h : klen ≠ 32) (tlen blen : Nat) (s : State) :
    exec (.rekey klen tlen blen) s = .next (s.fail .invalidKeyLength) := if_pos h

theorem exec_retweak_of_required (klen blen : Nat) (s : State) :
    exec (.retweak klen 16 blen) s = .next ((s.loadTweak (tweakSchedule s.tweakin)).succeed) := rfl

theorem exec_retweak_of_tlen_ne (h : tlen ≠ 16) (klen blen : Nat) (s : State) :
    exec (.retweak klen tlen blen) s = .next (s.fail .invalidTweakLength) := if_pos h

theorem exec_init_of_required (blen : Nat) (s : State) : exec (.init 32 16 blen) s =
    .next (((s.loadKey (keySchedule s.keyin)).loadTweak (tweakSchedule s.tweakin)).succeed) := rfl

/-- The key length is checked first, so a wrong one is reported whatever the tweak length (60_exceptions.md R202). -/
theorem exec_init_of_klen_ne (h : klen ≠ 32) (tlen blen : Nat) (s : State) :
    exec (.init klen tlen blen) s = .next (s.fail .invalidKeyLength) := if_pos h

/-- A wrong tweak length fails from the state before the key is loaded: nothing is written before both checks (R116). -/
theorem exec_init_of_tlen_ne (h : tlen ≠ 16) (blen : Nat) (s : State) :
    exec (.init 32 tlen blen) s = .next (s.fail .invalidTweakLength) := by
  have hklen : ¬ 32 ≠ requiredKlen := not_not.2 rfl
  rw [exec, execInit, if_neg hklen, requiredTlen, if_pos h]

/-- A reserved bit makes a word illegal, whatever its opcode (30_encoding.md R85). -/
theorem command_of_reservedBits (h : wordRsv0 w ≠ 0 ∨ wordRsv1 w ≠ 0) (s : State) :
    command w s = .next (s.fail .invalidCommand) :=
  command_of_illegalWord (.inr (.inr h)) s

/-- RETWEAK after REKEY leaves what INIT leaves: REKEY keeps `TWEAKIN`, and RETWEAK's clear error covers REKEY's. -/
theorem retweak_after_rekey (s : State) :
    (((s.loadKey (keySchedule s.keyin)).succeed).loadTweak
        (tweakSchedule ((s.loadKey (keySchedule s.keyin)).succeed).tweakin)).succeed =
      ((s.loadKey (keySchedule s.keyin)).loadTweak (tweakSchedule s.tweakin)).succeed := rfl

end contextCommands

/-- Settles O27: the outcome by KLEN and by the reserved bits, and the parity word against the raw key's own parity. -/
theorem rekeyReplacesExpandedKey : Obligations.RekeyReplacesExpandedKey := by
  refine ⟨?required, ?otherLength, ?reserved, ?parityZero, ?parityConstant, by decide, by decide⟩
  case required => exact fun s tlen blen => exec_rekey_of_required tlen blen s
  case otherLength => exact fun s _ tlen blen h => exec_rekey_of_klen_ne h tlen blen s
  case reserved => exact fun _ s _ h => command_of_reservedBits h s
  case parityZero =>
    intro k hk
    rw [keySchedule_w4, hk]
    exact BitVec.xor_self
  case parityConstant =>
    intro k hk
    rw [keySchedule_w4, hk]
    exact BitVec.xor_zero

/-- Settles O28: the outcome by TLEN and by the reserved bits; the parity word of two equal words cancels. -/
theorem retweakReplacesExpandedTweak : Obligations.RetweakReplacesExpandedTweak := by
  refine ⟨?required, ?otherLength, ?reserved, ?equalWords, by decide, rfl, by decide, by decide⟩
  case required => exact fun s klen blen => exec_retweak_of_required klen blen s
  case otherLength => exact fun s klen _ blen h => exec_retweak_of_tlen_ne h klen blen s
  case reserved => exact fun _ s _ h => command_of_reservedBits h s
  case equalWords => exact fun t => BitVec.xor_self

/-- Settles O29: the outcome by both lengths and by the reserved bits. Against REKEY then RETWEAK: with both lengths right
the two ways meet; with a wrong TLEN alone REKEY has already loaded the key, and INIT has not. -/
theorem initLoadsKeyAndTweakAllOrNothing : Obligations.InitLoadsKeyAndTweakAllOrNothing := by
  refine ⟨?required, ?otherKlen, ?otherTlen, ?asSequence, ?unlikeSequence, ?reserved, ?fromReset, by decide⟩
  case required => exact fun s blen => exec_init_of_required blen s
  case otherKlen => exact fun s _ tlen blen h => exec_init_of_klen_ne h tlen blen s
  case otherTlen => exact fun s _ blen h => exec_init_of_tlen_ne h blen s
  case asSequence =>
    intro s b b1 b2 t1 k2
    refine ⟨_, _, exec_rekey_of_required t1 b1 s, exec_retweak_of_required k2 b2 _, ?_⟩
    rw [retweak_after_rekey]
    exact exec_init_of_required b s
  case unlikeSequence =>
    intro s tlen b b1 b2 t1 k2 h
    exact ⟨_, _, _, exec_rekey_of_required t1 b1 s, exec_retweak_of_tlen_ne h k2 b2 _, rfl, exec_init_of_tlen_ne h b s, rfl⟩
  case reserved => exact fun _ s _ h => command_of_reservedBits h s
  case fromReset => exact ⟨_, exec_init_of_required 0 State.reset, by decide, by decide, by decide⟩

end Sys2Proof.Machine
end

-- ==== The mixing network: each operation with its inverse, the tables spelled out (41_mix_network.md R140 to R147, R153) ====
section
namespace Sys2Proof

/-- Within R10's range, a right rotation is the left rotation by the amount that is left to a full turn. -/
theorem rotr_eq_rotl_sub (x : Word) {r : Nat} (hr : r ≤ 64) : rotr x r = rotl x (64 - r) := by
  rw [rotr, rotl, Nat.sub_sub_self hr, BitVec.or_comm]

theorem rotl_eq_rotr_sub (x : Word) {r : Nat} (hr : r ≤ 64) : rotl x r = rotr x (64 - r) := by
  rw [rotr_eq_rotl_sub x (Nat.sub_le 64 r), Nat.sub_sub_self hr]

/-- The other side of `rotr_rotl`: both rotations turned into their opposites by `64 - r`. -/
theorem rotl_rotr (x : Word) {r : Nat} (hr : r < 64) : rotl (rotr x r) r = x := by
  obtain rfl | hpos := Nat.eq_zero_or_pos r
  · rw [rotr_zero, rotl_zero]
  · rw [rotl_eq_rotr_sub _ hr.le, rotr_eq_rotl_sub x hr.le, rotr_rotl x (Nat.sub_lt (by decide) hpos)]

section laws
variable (v : Words4) (ek : Words5) (et : Words3)

/-- The new first word is at hand, so its exclusive or with `y1` gives back the rotated `x1` (41_mix_network.md R141). -/
theorem mixInv_mix (x0 x1 : Word) {r : Nat} (hr : r ≤ 63) : mixInv (mix x0 x1 r).1 (mix x0 x1 r).2 r = (x0, x1) := by
  simp only [mix, mixInv, xor_cancel_right, rotr_rotl x1 (Nat.lt_succ_of_le hr), BitVec.add_sub_cancel]

theorem mix_mixInv (y0 y1 : Word) {r : Nat} (hr : r ≤ 63) : mix (mixInv y0 y1 r).1 (mixInv y0 y1 r).2 r = (y0, y1) := by
  simp only [mix, mixInv, BitVec.sub_add_cancel, rotl_rotr (y1 ^^^ y0) (Nat.lt_succ_of_le hr), xor_cancel_right]

@[simp] theorem perm_perm : perm (perm v) = v := rfl

/-- Both amounts of every row of the rotation table are in 1 to 63 (41_mix_network.md R142). -/
theorem rotTable_bounds (d : Fin 8) :
    1 ≤ (rotTable d).1 ∧ (rotTable d).1 ≤ 63 ∧ 1 ≤ (rotTable d).2 ∧ (rotTable d).2 ≤ 63 := by
  decide +revert

theorem rotPair_bounds (r : Nat) : 1 ≤ (rotPair r).1 ∧ (rotPair r).1 ≤ 63 ∧ 1 ≤ (rotPair r).2 ∧ (rotPair r).2 ≤ 63 :=
  rotTable_bounds (Fin.ofNat 8 r)

theorem rotTable_eq_row (d : Fin 8) : some (rotTable d) =
    [(14, 16), (52, 57), (23, 40), (5, 37), (25, 33), (46, 12), (58, 22), (32, 32)][d.val]? := by
  decide +revert

/-- The permutation cancels, and each lane is undone by its own MIX_INV (41_mix_network.md R145). -/
theorem roundInv_roundFwd (r : Nat) : roundInv (roundFwd v r) r = v := by
  obtain ⟨-, ha, -, hb⟩ := rotPair_bounds r
  simp only [roundInv, roundFwd, perm_perm, mixInv_mix _ _ ha, mixInv_mix _ _ hb]

theorem roundFwd_roundInv (r : Nat) : roundFwd (roundInv v r) r = v := by
  obtain ⟨-, ha, -, hb⟩ := rotPair_bounds r
  simp only [roundInv, roundFwd, mix_mixInv _ _ ha, mix_mixInv _ _ hb]
  exact perm_perm v

theorem eject_inject (s : Nat) : eject ek et (inject ek et v s) s = v := by
  simp only [eject, inject, BitVec.add_sub_cancel]

theorem inject_eject (s : Nat) : inject ek et (eject ek et v s) s = v := by
  simp only [eject, inject, BitVec.sub_add_cancel]

end laws

/-- Settles O2: the sum is the library's, and the second result is defined from the first. -/
theorem mixAddsRotatesXors : Obligations.MixAddsRotatesXors :=
  ⟨fun x0 x1 _ _ => ⟨BitVec.toNat_add x0 x1, rfl⟩, by decide⟩

/-- Settles O3: the difference is O1's, and the two laws are the lemmas above. -/
theorem mixInvUndoesMix : Obligations.MixInvUndoesMix := by
  refine ⟨fun y0 y1 r _ => ⟨rfl, ?difference⟩, fun x0 x1 _ hr => mixInv_mix x0 x1 hr,
    fun y0 y1 _ hr => mix_mixInv y0 y1 hr, by decide⟩
  case difference =>
    obtain ⟨hwords, -⟩ := wordOperationsAreModular
    obtain ⟨-, hsub, -⟩ := hwords y0 (mixInv y0 y1 r).2
    exact hsub

/-- Settles O4: exchanging two positions twice puts every word back. -/
theorem permSwapsOneAndThree : Obligations.PermSwapsOneAndThree :=
  ⟨fun _ _ _ _ => rfl, perm_perm⟩

/-- Settles O5: the round index enters through its row of the table alone, so its clauses are those of the eight rows. -/
theorem roundUsesRotationTable : Obligations.RoundUsesRotationTable :=
  ⟨fun r => rotTable_eq_row (Fin.ofNat 8 r), rotPair_bounds, fun _ _ => rfl, by decide, fun _ _ => rfl⟩

/-- Settles O6: the form is the definition's, and the two laws are the lemmas above. -/
theorem roundInvUndoesRound : Obligations.RoundInvUndoesRound :=
  fun v r => ⟨rfl, roundInv_roundFwd v r, roundFwd_roundInv v r⟩

/-- Settles O8: in each row the indices mod 5 and mod 3 and the counter are literals, and the definition computes it. -/
theorem subkeyTableSpelledOut : Obligations.SubkeyTableSpelledOut := fun _ _ => rfl

/-- Settles O9: both forms are the definitions', and the subtraction cancels the addition word by word. -/
theorem ejectUndoesInject : Obligations.EjectUndoesInject :=
  fun ek et v s => ⟨rfl, rfl, eject_inject v ek et s⟩

end Sys2Proof
end

-- ==== The transforms as runs of micro-steps, and the inverse run (41_mix_network.md R148 to R152, R160) ====
section
namespace Sys2Proof

section runs
variable (ek : Words5) (et : Words3) (v : Words4)

/-- The micro-step that undoes `o`. -/
def MicroOp.undo : MicroOp → MicroOp
  | .inject s => .eject s
  | .round r => .roundInv r
  | .eject s => .inject s
  | .roundInv r => .round r

@[simp] theorem MicroOp.undo_undo (o : MicroOp) : o.undo.undo = o := by
  cases o <;> rfl

theorem microStep_undo (o : MicroOp) : microStep ek et (microStep ek et v o) o.undo = v := by
  cases o with
  | inject s => exact eject_inject v ek et s
  | round r => exact roundInv_roundFwd v r
  | eject s => exact inject_eject v ek et s
  | roundInv r => exact roundFwd_roundInv v r

/-- The micro-steps that undo a run: each one undone, the last first. -/
def undoOps (ops : List MicroOp) : List MicroOp := ops.reverse.map MicroOp.undo

theorem undoOps_append (a b : List MicroOp) : undoOps (a ++ b) = undoOps b ++ undoOps a := by
  rw [undoOps, List.reverse_append, List.map_append]; rfl

theorem undoOps_undoOps (ops : List MicroOp) : undoOps (undoOps ops) = ops := by
  simp [undoOps, Function.comp_def]

theorem microRun_append (a b : List MicroOp) : microRun ek et (a ++ b) v = microRun ek et b (microRun ek et a v) :=
  List.foldl_append

theorem microRun_undoOps (ops : List MicroOp) : microRun ek et (undoOps ops) (microRun ek et ops v) = v := by
  induction ops generalizing v with
  | nil => rfl
  | cons o ops ih =>
    have hsplit : undoOps (o :: ops) = undoOps ops ++ [o.undo] := undoOps_append [o] ops
    rw [hsplit, microRun_append]
    calc microStep ek et (microRun ek et (undoOps ops) (microRun ek et ops (microStep ek et v o))) o.undo
      _ = microStep ek et (microStep ek et v o) o.undo := by rw [ih]
      _ = v := microStep_undo ek et v o

/-- A round of ENC is the run of its one or two micro-steps (41_mix_network.md R149, R160). -/
theorem microRun_forwardOpsOf (r : Nat) : microRun ek et (forwardOpsOf r) v = encRound ek et v r := by
  rw [forwardOpsOf, encRound]
  split_ifs <;> rfl

/-- A round of DEC is the run of its one or two micro-steps (41_mix_network.md R150, R160). -/
theorem microRun_inverseOpsOf (r : Nat) : microRun ek et (inverseOpsOf r) v = decRound ek et v r := by
  rw [inverseOpsOf, decRound]
  split_ifs <;> rfl

theorem microRun_forwardOps : microRun ek et forwardOps v = enc ek et v := by
  rw [microRun, forwardOps, List.foldl_cons, List.foldl_flatMap]
  exact congrArg (List.foldl · _ _) (funext₂ (microRun_forwardOpsOf ek et))

theorem microRun_inverseOps : microRun ek et inverseOps v = dec ek et v := by
  rw [microRun, inverseOps, List.foldl_cons, List.foldl_flatMap]
  exact congrArg (List.foldl · _ _) (funext₂ (microRun_inverseOpsOf ek et))

end runs

/-- The rounds of the first `n` groups, and then those of group `n`. -/
theorem range_four_mul_succ (n : Nat) :
    List.range (4 * (n + 1)) = List.range (4 * n) ++ [4 * n, 4 * n + 1, 4 * n + 2, 4 * n + 3] := by
  simp [Nat.mul_succ, List.range_succ]

/-- In the forward direction the next injection follows the last of a group's four rounds. -/
theorem flatMap_forwardOpsOf_group (n : Nat) : [4 * n, 4 * n + 1, 4 * n + 2, 4 * n + 3].flatMap forwardOpsOf =
    [.round (4 * n), .round (4 * n + 1), .round (4 * n + 2), .round (4 * n + 3), .inject (n + 1)] := by
  have hnext : (4 * n + 3 + 1) / 4 = n + 1 := by omega
  simp [forwardOpsOf, hnext]

/-- In the inverse direction the group's own injection is undone after the first of its four rounds, the last one undone. -/
theorem flatMap_inverseOpsOf_group (n : Nat) : [4 * n, 4 * n + 1, 4 * n + 2, 4 * n + 3].reverse.flatMap inverseOpsOf =
    [.roundInv (4 * n + 3), .roundInv (4 * n + 2), .roundInv (4 * n + 1), .roundInv (4 * n), .eject n] := by
  simp [inverseOpsOf]

/-- The forward micro-steps of the first `n` groups, each injection counted with the group it precedes (41_mix_network.md R148). -/
theorem forward_groups (n : Nat) : MicroOp.inject 0 :: (List.range (4 * n)).flatMap forwardOpsOf =
    (List.range n).flatMap (fun s =>
      [.inject s, .round (4 * s), .round (4 * s + 1), .round (4 * s + 2), .round (4 * s + 3)]) ++ [.inject n] := by
  induction n with
  | zero => rfl
  | succ n ih =>
    rw [range_four_mul_succ, List.flatMap_append, ← List.cons_append, ih, flatMap_forwardOpsOf_group, List.range_succ,
      List.flatMap_append]
    simp

/-- The inverse micro-steps of the first `n` groups undo the forward ones, although each direction has its injections at
the other end of a group. -/
theorem inverse_groups (n : Nat) : MicroOp.eject n :: (List.range (4 * n)).reverse.flatMap inverseOpsOf =
    undoOps (.inject 0 :: (List.range (4 * n)).flatMap forwardOpsOf) := by
  induction n with
  | zero => rfl
  | succ n ih =>
    rw [range_four_mul_succ, List.reverse_append, List.flatMap_append, flatMap_inverseOpsOf_group, List.flatMap_append,
      flatMap_forwardOpsOf_group, ← List.cons_append, ← List.cons_append, undoOps_append, ← ih]
    rfl

theorem inverseOps_eq_undoOps : inverseOps = undoOps forwardOps := inverse_groups 18

/-- Settles O10: ENC is the run of the forward micro-steps, which regroup by the injection that precedes each group. -/
theorem injectionScheduleByGroups : Obligations.InjectionScheduleByGroups :=
  ⟨fun ek et v => (microRun_forwardOps ek et v).symm, forward_groups 18⟩

/-- Settles O12: DEC runs the undone micro-steps of ENC, and ENC those of DEC. -/
theorem decryptionInvertsEncryption : Obligations.DecryptionInvertsEncryption := by
  refine fun ek et => ⟨fun p => ?decEnc, fun c => ?encDec⟩
  case decEnc =>
    rw [← microRun_forwardOps, ← microRun_inverseOps, inverseOps_eq_undoOps, microRun_undoOps]
  case encDec =>
    have hback : forwardOps = undoOps inverseOps := by rw [inverseOps_eq_undoOps, undoOps_undoOps]
    rw [← microRun_forwardOps, ← microRun_inverseOps, hback, microRun_undoOps]

/-- Settles O13: DEC is a two-sided inverse of ENC under the same context. -/
theorem encryptionIsABijection : Obligations.EncryptionIsABijection := by
  intro ek et
  obtain ⟨hleft, hright⟩ := decryptionInvertsEncryption ek et
  have hbij : Function.Bijective (enc ek et) := Function.bijective_iff_has_inverse.2 ⟨dec ek et, hleft, hright⟩
  exact ⟨hbij, fun _ _ => hbij.injective.ne⟩

end Sys2Proof
end

-- ==== The block commands by their context and length, and their round trip (42_block_commands.md R180 to R184) ====
section
namespace Sys2Proof

/-- The zero block under the context of the zero key and tweak, the example of 42_block_commands.md R181. -/
theorem enc_zero_block : enc ⟨0, 0, 0, 0, 0x1BD11BDAA9FC1A22⟩ ⟨0, 0, 0⟩ ⟨0, 0, 0, 0⟩ =
    ⟨0x94EEEA8B1F2ADA84, 0xADF103313EAE6670, 0x952419A1F4B16D53, 0xD83F13E63C9F6B11⟩ := by decide +kernel

theorem dec_enc (ek : Words5) (et : Words3) (p : Words4) : dec ek et (enc ek et p) = p :=
  (decryptionInvertsEncryption ek et).1 p

theorem enc_dec (ek : Words5) (et : Words3) (c : Words4) : enc ek et (dec ek et c) = c :=
  (decryptionInvertsEncryption ek et).2 c

/-- The example of `enc_zero_block` undone (42_block_commands.md R182). -/
theorem dec_to_zero_block : dec ⟨0, 0, 0, 0, 0x1BD11BDAA9FC1A22⟩ ⟨0, 0, 0⟩
    ⟨0x94EEEA8B1F2ADA84, 0xADF103313EAE6670, 0x952419A1F4B16D53, 0xD83F13E63C9F6B11⟩ = ⟨0, 0, 0, 0⟩ := by
  rw [← enc_zero_block, dec_enc]

end Sys2Proof

namespace Sys2Proof.Machine

section blockCommands
variable (f g : Words5 → Words3 → Words4 → Words4) {i : Instr} {blen : Nat} {s t : State}

theorem contextReady_eq_false_iff : s.contextReady = false ↔ s.keyValid = false ∨ s.tweakValid = false :=
  Bool.and_eq_false_iff

theorem blockCommand_of_required (hkey : s.keyValid = true) (htweak : s.tweakValid = true) :
    blockCommand f 32 s = .next { s with dout := f s.ek s.et s.din, err := false, errcode := none } := by
  have hready := (contextReady_iff s).2 ⟨hkey, htweak⟩
  simp [blockCommand_eq, hready, State.storeDout, State.succeed]

/-- The context is checked first, so its absence is reported whatever the block length (60_exceptions.md R202). -/
theorem blockCommand_of_no_context (h : s.keyValid = false ∨ s.tweakValid = false) :
    blockCommand f blen s = .next (s.fail .contextNotInitialised) := by
  rw [blockCommand_eq, if_pos (contextReady_eq_false_iff.2 h)]

theorem blockCommand_of_blen_ne (hkey : s.keyValid = true) (htweak : s.tweakValid = true) (h : blen ≠ 32) :
    blockCommand f blen s = .next (s.fail .invalidBlockLength) := by
  have hready := (contextReady_iff s).2 ⟨hkey, htweak⟩
  simp [blockCommand_eq, hready, h]

/-- What a block command that succeeded left in `DOUT`: its transform of `DIN` under the context (R181, R182). -/
theorem dout_of_exec_block (hop : i.op = 0x4#4 ∨ i.op = 0x5#4) (h : exec i s = .next t) (herr : t.err = false) :
    t.dout = (if i.op = 0x4#4 then enc else dec) s.ek s.et s.din := by
  obtain ⟨_, rfl⟩ | ⟨h1, -⟩ | ⟨h2, -⟩ | ⟨h3, -⟩ | ⟨h4, -, rfl⟩ | ⟨h5, -, rfl⟩ := exec_cases h
  · cases herr
  · simp [h1] at hop
  · simp [h2] at hop
  · simp [h3] at hop
  · simp [h4]
  · simp [h5]

variable {f g}

/-- INIT, a transform of any block, and the inverse transform of the result give the block back: INIT sets both valid flags,
and the first block command leaves the context the second one uses (R183, 10_state.md R35). -/
theorem init_block_round_trip (hinv : ∀ ek et p, g ek et (f ek et p) = p) (s : State) (p : Words4) (b : Nat) :
    ∃ s1 s2 s3, exec (.init 32 16 b) s = .next s1 ∧ blockCommand f 32 { s1 with din := p } = .next s2 ∧
      blockCommand g 32 { s2 with din := s2.dout } = .next s3 ∧ s3.dout = p :=
  ⟨_, _, _, exec_init_of_required b s, blockCommand_of_required f rfl rfl, blockCommand_of_required g rfl rfl, hinv _ _ p⟩

end blockCommands

/-- Settles O30: the outcome by the context, by BLEN and by the reserved bits. -/
theorem encryptWritesForwardTransform : Obligations.EncryptWritesForwardTransform := by
  refine ⟨?required, ?noContext, ?otherLength, ?reserved, enc_zero_block, by decide⟩
  case required => exact fun _ _ _ hkey htweak => blockCommand_of_required enc hkey htweak
  case noContext => exact fun _ _ _ _ h => blockCommand_of_no_context enc h
  case otherLength => exact fun _ _ _ _ hkey htweak h => blockCommand_of_blen_ne enc hkey htweak h
  case reserved => exact fun _ s _ h => command_of_reservedBits h s

/-- Settles O31: the same outcomes with DEC; its example is that of ENCRYPT undone. -/
theorem decryptWritesInverseTransform : Obligations.DecryptWritesInverseTransform := by
  refine ⟨?required, ?noContext, ?otherLength, ?reserved, dec_to_zero_block, by decide⟩
  case required => exact fun _ _ _ hkey htweak => blockCommand_of_required dec hkey htweak
  case noContext => exact fun _ _ _ _ h => blockCommand_of_no_context dec h
  case otherLength => exact fun _ _ _ _ hkey htweak h => blockCommand_of_blen_ne dec hkey htweak h
  case reserved => exact fun _ s _ h => command_of_reservedBits h s

/-- Settles O34: the result is one transform of `EK`, `ET` and `DIN`, the same in both states. -/
theorem blockResultDependsOnContextAndInput : Obligations.BlockResultDependsOnContextAndInput := by
  intro i s s' t t' hop hdin hek het h h' herr herr'
  rw [dout_of_exec_block hop h herr, dout_of_exec_block hop h' herr', hdin, hek, het]

/-- Settles O35: each transform is the other's inverse under the context INIT loads. -/
theorem commandLevelRoundTrip : Obligations.CommandLevelRoundTrip :=
  fun s p b _ _ _ _ => ⟨init_block_round_trip dec_enc s p b, init_block_round_trip enc_dec s p b⟩

end Sys2Proof.Machine
end

-- ==== Command errors: the codes, the first check that fails, and the frame of a failure (60_exceptions.md R200 to R205) ====
section
namespace Sys2Proof.Machine

/-- The first check of a command that fails, in R202's order after the word's own; none when the command succeeds
(60_exceptions.md R202). -/
def firstFailingCheck (s : State) : Instr → Option CmdError
  | .rekey klen _ _ => if klen ≠ 32 then some .invalidKeyLength else none
  | .retweak _ tlen _ => if tlen ≠ 16 then some .invalidTweakLength else none
  | .init klen tlen _ =>
    if klen ≠ 32 then some .invalidKeyLength else if tlen ≠ 16 then some .invalidTweakLength else none
  | .encrypt _ _ blen | .decrypt _ _ blen =>
    if s.keyValid = false ∨ s.tweakValid = false then some .contextNotInitialised
    else if blen ≠ 32 then some .invalidBlockLength else none

section commands
variable {i : Instr} {w : Word} {s t : State} {blen : Nat}

theorem blockCommand_errcode {f : Words5 → Words3 → Words4 → Words4} (h : blockCommand f blen s = .next t) :
    t.errcode = if s.keyValid = false ∨ s.tweakValid = false then some .contextNotInitialised
      else if blen ≠ 32 then some .invalidBlockLength else none := by
  rw [blockCommand_eq] at h
  cases h
  simp only [contextReady_eq_false_iff]
  split_ifs <;> rfl

/-- A command leaves the code of its first failing check in `ERRCODE`. -/
theorem exec_errcode (h : exec i s = .next t) : t.errcode = firstFailingCheck s i := by
  cases i with
  | rekey klen tlen blen =>
    by_cases hklen : klen = 32
    · subst hklen; cases h; rfl
    · rw [exec_rekey_of_klen_ne hklen] at h
      cases h
      exact (if_pos hklen).symm
  | retweak klen tlen blen =>
    by_cases htlen : tlen = 16
    · subst htlen; cases h; rfl
    · rw [exec_retweak_of_tlen_ne htlen] at h
      cases h
      exact (if_pos htlen).symm
  | init klen tlen blen =>
    by_cases hklen : klen = 32
    · subst hklen
      by_cases htlen : tlen = 16
      · subst htlen; cases h; rfl
      · rw [exec_init_of_tlen_ne htlen] at h
        cases h
        exact (if_pos htlen).symm
    · rw [exec_init_of_klen_ne hklen] at h
      cases h
      exact (if_pos hklen).symm
  | encrypt klen tlen blen => exact blockCommand_errcode (f := enc) h
  | decrypt klen tlen blen => exact blockCommand_errcode (f := dec) h

/-- A command that ends with `ERR` set is one that failed: a success clears it (60_exceptions.md R205). -/
theorem eq_fail_of_command_err (h : command w s = .next t) (herr : t.err = true) : ∃ e, t = s.fail e := by
  obtain hfail | rfl | rfl | rfl | ⟨-, _, rfl⟩ := command_effect h
  · exact hfail
  all_goals cases herr

/-- A failure shows in the window in `STATUS` alone, at offsets 8 to 15 (60_exceptions.md R205). -/
theorem windowByte_fail {e : CmdError} {off : BitVec 8} (hoff : off.toNat / 8 ≠ 1) :
    (s.fail e).windowByte off = s.windowByte off := by
  refine windowByte_congr fun r hr => ?_
  cases r with
  | status => exact absurd (div_eq_one_of_regAt_status hr) hoff
  | _ => rfl

end commands

/-- Settles O23: an illegal word fails by its reserved bits or its opcode; a legal one is a command with the word's fields,
whose own checks are those of the chain at its opcode. -/
theorem firstFailingCheckIsReported : Obligations.FirstFailingCheckIsReported := by
  intro w s
  obtain ⟨t, ht⟩ := command_answers w s
  refine ⟨t, ht, ?_⟩
  by_cases hillegal : IllegalWord w
  · rw [command_of_illegalWord hillegal] at ht
    cases ht
    by_cases hrsv : wordRsv0 w ≠ 0 ∨ wordRsv1 w ≠ 0
    · rw [if_pos hrsv, State.fail_errcode]
    · have hop : wordOp w = 0 ∨ 6 ≤ wordOp w := by tauto
      rw [if_neg hrsv, if_neg (by omega), if_neg (by omega), if_neg (by omega), if_neg (by omega), State.fail_errcode]
  · obtain ⟨i, hi⟩ := exists_decodeWord_iff.2 hillegal
    obtain ⟨hop, hrsv0, hklen, htlen, hblen, hrsv1⟩ := fields_of_decodeWord hi
    rw [command_of_decodeWord hi] at ht
    rw [exec_errcode ht]
    simp only [wordRsv0, wordRsv1, wordOp, wordKlen, wordTlen, wordBlen, hrsv0, hrsv1, ← hop, ← hklen, ← htlen, ← hblen]
    cases i <;> rfl

/-- Settles O25: the failed state is the old one but for the error fields, and so are its bytes outside `STATUS`. -/
theorem failedCommandWritesOnlyStatus : Obligations.FailedCommandWritesOnlyStatus := by
  intro w s t h herr
  obtain ⟨e, rfl⟩ := eq_fail_of_command_err h herr
  exact ⟨⟨e, rfl⟩, fun _ => windowByte_fail⟩

/-- Settles O24: the codes by the table, and the bound from that of the five errors. -/
theorem errorCodesAreZeroToFive : Obligations.ErrorCodesAreZeroToFive := by
  refine ⟨rfl, rfl, rfl, rfl, rfl, rfl, fun s => ?bound⟩
  case bound =>
    cases s.errcode with
    | none => exact Nat.zero_le 5
    | some e => exact e.code_bounds.2

end Sys2Proof.Machine
end

-- ==== Access faults: the bad accesses, the answered ones, and the steps they make (60_exceptions.md R203, R204) ====
section
namespace Sys2Proof.Machine

section accesses
variable {off : BitVec 8} {size : Nat} {s : State}

/-- No register stands at or past `0x80` (20_memory.md R56). -/
theorem regAt_eq_none_of_le (h : 0x80 ≤ off.toNat) : regAt off = none := by
  rw [← Option.not_isSome_iff_eq_none, regAt_isSome_iff]
  omega

/-- A bad access is in a bad form, or in a good form at an offset with no register. -/
theorem bad_form_or_unmapped (h : size ≠ 8 ∨ off.toNat % 8 ≠ 0 ∨ 0x80 ≤ off.toNat) :
    (size ≠ 8 ∨ off.toNat % 8 ≠ 0) ∨ (goodForm off size = true ∧ regAt off = none) := by
  by_cases hform : size ≠ 8 ∨ off.toNat % 8 ≠ 0
  · exact .inl hform
  · exact .inr ⟨(goodForm_iff off size).2 (by omega), regAt_eq_none_of_le (by omega)⟩

/-- A bad read faults with its own address (60_exceptions.md R203). -/
theorem portRead_of_bad (h : size ≠ 8 ∨ off.toNat % 8 ≠ 0 ∨ 0x80 ≤ off.toNat) :
    portRead off size s = .fault (.accessFault (Config.engineBase + off.toNat)) := by
  obtain hform | ⟨hform, hreg⟩ := bad_form_or_unmapped h
  · exact portRead_of_bad_form hform
  · rw [portRead_of_good_form hform, hreg, Option.elim_none]

/-- A bad write faults with its own address (60_exceptions.md R203). -/
theorem portWrite_of_bad (h : size ≠ 8 ∨ off.toNat % 8 ≠ 0 ∨ 0x80 ≤ off.toNat) (w : Word) :
    portWrite off size w s = .fault (.accessFault (Config.engineBase + off.toNat)) := by
  obtain hform | ⟨hform, hreg⟩ := bad_form_or_unmapped h
  · exact portWrite_of_bad_form hform
  · rw [portWrite_of_good_form hform, hreg, Option.elim_none]

/-- A write of any register is answered; of `CMD`, because every command word is (60_exceptions.md R204). -/
theorem writeReg_answers (r : Reg) (w : Word) (s : State) : ∃ t, writeReg r w s = .next t := by
  cases r with
  | cmd => exact command_answers w s
  | _ => exact ⟨_, rfl⟩

/-- A safe access is in the port's form at a register's offset (20_memory.md R55, R56). -/
theorem goodForm_and_mapped (h : size = 8 ∧ off.toNat % 8 = 0 ∧ off.toNat < 0x80) :
    goodForm off size = true ∧ ∃ r, regAt off = some r := by
  obtain ⟨hsize, haligned, hmapped⟩ := h
  exact ⟨(goodForm_iff off size).2 ⟨hsize, haligned⟩, Option.isSome_iff_exists.1 ((regAt_isSome_iff off).2 ⟨haligned, hmapped⟩)⟩

theorem portRead_answers (h : size = 8 ∧ off.toNat % 8 = 0 ∧ off.toNat < 0x80) (s : State) :
    ∃ t, portRead off size s = .next t := by
  obtain ⟨hform, r, hr⟩ := goodForm_and_mapped h
  rw [portRead_of_good_form hform, hr]
  exact ⟨_, rfl⟩

theorem portWrite_answers (h : size = 8 ∧ off.toNat % 8 = 0 ∧ off.toNat < 0x80) (w : Word) (s : State) :
    ∃ t, portWrite off size w s = .next t := by
  obtain ⟨hform, r, hr⟩ := goodForm_and_mapped h
  rw [portWrite_of_good_form hform, hr]
  exact writeReg_answers r w _

theorem portAccess_answers {a : Access} (h : a.Safe) (s : State) : ∃ t, portAccess a s = .next t := by
  cases a with
  | read off size => exact portRead_answers h s
  | write off size w => exact portWrite_answers h w s

end accesses

section steps
variable {s : State}

/-- A step answers unless its event is a bad access: the two resets and the idle step always do. -/
theorem step_answers (h : s.SafeNext) : ∃ t, step s = .next t := by
  unfold step serveNext
  split
  · exact ⟨s, rfl⟩
  · next e rest hp =>
    rw [State.SafeNext, hp] at h
    cases e with
    | access a => exact portAccess_answers h _
    | reset => exact ⟨_, rfl⟩
    | resetDuring a => exact ⟨_, rfl⟩

theorem exists_unsafe_access_of_not_safeNext (h : ¬ s.SafeNext) : ∃ a rest, s.pending = .access a :: rest ∧ ¬ a.Safe := by
  unfold State.SafeNext at h
  split at h
  · next a rest hp => exact ⟨a, rest, hp, h⟩
  · exact absurd trivial h

end steps

/-- Settles O44: a bad access by its form or its offset, a good one by the register it finds, and a step that faults
cannot have a safe event next. -/
theorem accessFaultExactlyOnBadAccess : Obligations.AccessFaultExactlyOnBadAccess := by
  refine ⟨fun off size s => ⟨fun hbad => ⟨portRead_of_bad hbad, portWrite_of_bad hbad⟩, fun hsize haligned hmapped => ?good⟩,
    fun s f hfault => exists_unsafe_access_of_not_safeNext fun hsafe => ?step⟩
  case good =>
    have hsafe := And.intro hsize (And.intro haligned hmapped)
    exact ⟨portRead_answers hsafe s, fun w => portWrite_answers hsafe w s⟩
  case step =>
    obtain ⟨t, ht⟩ := step_answers hsafe
    cases ht.symm.trans hfault

/-- Settles O45: the 8-byte write is in the port's form at `CMD` and so runs the word, which always answers; another size
is a bad form. -/
theorem commandWriteNeverFaults : Obligations.CommandWriteNeverFaults := by
  refine fun w s => ⟨⟨portWrite_of_good_form (off := 0x00) rfl, portWrite_answers (by decide) w s⟩, fun size hsize => ?_⟩
  exact portWrite_of_bad_form (off := 0x00) (.inl hsize)

end Sys2Proof.Machine
end

-- ==== Reset: the schedules of zeros, and the reset input as an event (70_reset_and_hazards.md R230) ====
section
namespace Sys2Proof

/-- The parity word of the zero key is `C240` alone (40_schedules.md R110). -/
theorem keySchedule_zero : keySchedule ⟨0, 0, 0, 0⟩ = ⟨0, 0, 0, 0, 0x1BD11BDAA9FC1A22⟩ := by decide

theorem tweakSchedule_zero : tweakSchedule ⟨0, 0⟩ = ⟨0, 0, 0⟩ := by decide

end Sys2Proof

namespace Sys2Proof.Machine

section steps
variable {s : State} {e : HostEvent} {rest : List HostEvent}

/-- A step takes the oldest event and serves it (20_memory.md R61). -/
theorem step_of_pending_cons (h : s.pending = e :: rest) : step s = serve e (s.consume rest) := by
  rw [step, serveNext, h]

theorem step_of_pending_reset (h : s.pending = .reset :: rest) : step s = .next (s.consume rest).resetEngine :=
  step_of_pending_cons h

end steps

/-- Settles O54: the values are the definition's, `EK` and `ET` are the schedules of zeros, and the step that serves the
reset event resets the engine and takes that event alone. -/
theorem resetGivesEveryElementItsValue : Obligations.ResetGivesEveryElementItsValue := by
  refine ⟨?values, ?errcode, ?expandedKey, ?expandedTweak, fun s rest h => ?resetEvent⟩
  case values => rfl
  case errcode => rfl
  case expandedKey => exact keySchedule_zero.symm
  case expandedTweak => exact tweakSchedule_zero.symm
  case resetEvent => exact step_of_pending_reset h

end Sys2Proof.Machine
end

-- ==== Encoding and decoding a command, as a word and as bytes (30_encoding.md sections 1 and 2, 20_memory.md section 3) ====
section
namespace Sys2Proof

/-- Each 8-bit field holds its length unreduced when that is at most 255 (30_encoding.md R81, R82). -/
theorem decodeWord_encodeWord {i : Instr} (h : i.wf = true) : decodeWord (encodeWord i) = .ok i := by
  obtain ⟨hklen, htlen, hblen⟩ := (Instr.wf_iff i).1 h
  refine decodeWord_eq_ok_iff.2 ⟨rsv0Field_encodeWord i, rsv1Field_encodeWord i,
    decodeOp_eq_ok_iff.2 ⟨(opField_encodeWord i).symm, ?klen, ?tlen, ?blen⟩⟩
  case klen => rw [klenField_encodeWord, Nat.mod_eq_of_lt (by omega)]
  case tlen => rw [tlenField_encodeWord, Nat.mod_eq_of_lt (by omega)]
  case blen => rw [blenField_encodeWord, Nat.mod_eq_of_lt (by omega)]

theorem decode_of_length_lt {bs : List Byte} (h : bs.length < 8) : decode bs = .error .truncated := by
  unfold decode
  split
  · simp only [List.length_cons] at h
    omega
  · rfl

theorem decodeWord_of_decode_leBytes {w : Word} {i : Instr} {rest : List Byte} (h : decode (leBytes w) = .ok (i, rest)) :
    decodeWord w = .ok i := by
  rw [← List.append_nil (leBytes w), decode_leBytes] at h
  cases hw : decodeWord w with
  | error e => rw [hw] at h; cases h
  | ok j => rw [hw] at h; cases h; rfl

/-- Settles O15: both reserved fields of the word are 0, and its opcode and three lengths are the command's. -/
theorem decodeOfEncodedCommand : Obligations.DecodeOfEncodedCommand :=
  fun _ => decodeWord_encodeWord

/-- Settles O17: eight little-endian bytes are read back as their word, which decodes to the command. -/
theorem decodeOfByteString : Obligations.DecodeOfByteString := by
  refine ⟨fun i rest h => ?command, fun _ => decode_of_length_lt⟩
  case command =>
    rw [encode, decode_leBytes, decodeWord_encodeWord h]
    rfl

/-- Settles O20: the word's low bits are the opcode, which is 1 to 5. -/
theorem everyCommandWordIsWellFormed : Obligations.EveryCommandWordIsWellFormed :=
  fun i => Laws.EncodedForm.of_op i (op_bounds i)

/-- Settles O19: the decoder computes each of the five literal words. -/
theorem writtenOutWordsDecode : Obligations.WrittenOutWordsDecode := by
  unfold Obligations.WrittenOutWordsDecode
  decide

end Sys2Proof
end

-- ==== The lanes of a round, and the micro-steps counted (41_mix_network.md R155, R160) ====
section
namespace Sys2Proof

/-- Before its permutation a round is MIX of words 0 and 1 beside MIX of words 2 and 3 (41_mix_network.md R155). -/
theorem perm_roundFwd (v : Words4) (r : Nat) : perm (roundFwd v r) =
    ⟨(mix v.w0 v.w1 (rotPair r).1).1, (mix v.w0 v.w1 (rotPair r).1).2,
     (mix v.w2 v.w3 (rotPair r).2).1, (mix v.w2 v.w3 (rotPair r).2).2⟩ := perm_perm _

/-- Settles O7: each pair of words of a round is MIX of the same pair of its input, and of the inverse round MIX_INV of it. -/
theorem roundLanesAreIndependent : Obligations.RoundLanesAreIndependent := by
  refine fun v v' r => ⟨fun h0 h1 => ?lane01, fun h2 h3 => ?lane23, fun h0 h1 => ?inverse01, fun h2 h3 => ?inverse23⟩
  case lane01 => simp only [perm_roundFwd, h0, h1, and_self]
  case lane23 => simp only [perm_roundFwd, h2, h3, and_self]
  case inverse01 => simp only [roundInv, h0, h1, and_self]
  case inverse23 => simp only [roundInv, h2, h3, and_self]

/-- A micro-step of ROUND. -/
def MicroOp.isRound : MicroOp → Bool
  | .round _ => true
  | _ => false

/-- A micro-step of ROUND_INV. -/
def MicroOp.isRoundInv : MicroOp → Bool
  | .roundInv _ => true
  | _ => false

theorem filter_isRound_forwardOpsOf (r : Nat) : (forwardOpsOf r).filter MicroOp.isRound = [.round r] := by
  unfold forwardOpsOf
  split <;> rfl

theorem filter_isRoundInv_inverseOpsOf (r : Nat) : (inverseOpsOf r).filter MicroOp.isRoundInv = [.roundInv r] := by
  unfold inverseOpsOf
  split <;> rfl

theorem filter_isRound_forwardOps : forwardOps.filter MicroOp.isRound = (List.range 72).map .round := by
  have hfirst : ¬ (MicroOp.inject 0).isRound = true := by decide
  rw [forwardOps, List.filter_cons_of_neg hfirst, List.filter_flatMap, ← List.flatMap_pure_eq_map]
  exact congrArg (List.flatMap · _) (funext filter_isRound_forwardOpsOf)

theorem filter_isRoundInv_inverseOps : inverseOps.filter MicroOp.isRoundInv = (List.range 72).reverse.map .roundInv := by
  have hfirst : ¬ (MicroOp.eject 18).isRoundInv = true := by decide
  rw [inverseOps, List.filter_cons_of_neg hfirst, List.filter_flatMap, ← List.flatMap_pure_eq_map]
  exact congrArg (List.flatMap · _) (funext filter_isRoundInv_inverseOpsOf)

/-- Five micro-steps for each of the 18 groups, and the last injection. -/
theorem length_forwardOps : forwardOps.length = 91 := by
  obtain ⟨-, hgroups⟩ := injectionScheduleByGroups
  rw [hgroups]
  rfl

/-- The inverse direction undoes the forward micro-steps, one for one. -/
theorem length_inverseOps : inverseOps.length = 91 := by
  rw [inverseOps_eq_undoOps, undoOps, List.length_map, List.length_reverse, length_forwardOps]

/-- Settles O11: a transform is the run of its micro-steps, and each round contributes one round micro-step. -/
theorem microStepsComputeTransforms : Obligations.MicroStepsComputeTransforms :=
  ⟨microRun_forwardOps, microRun_inverseOps, length_forwardOps, length_inverseOps,
    filter_isRound_forwardOps, filter_isRoundInv_inverseOps⟩

end Sys2Proof
end

-- ==== The context commands: their frame, and the orders that load a context (40_schedules.md sections 2 to 5) ====
section
namespace Sys2Proof.Machine

section contextCommands
variable {i : Instr} {s t : State}

/-- A context command writes the context and the error fields alone (40_schedules.md sections 2 to 5). -/
theorem exec_context_frame (hop : i.op = 0x1#4 ∨ i.op = 0x2#4 ∨ i.op = 0x3#4) (h : exec i s = .next t) :
    t = { s with ek := t.ek, et := t.et, keyValid := t.keyValid, tweakValid := t.tweakValid, err := t.err,
                 errcode := t.errcode } := by
  obtain ⟨_, rfl⟩ | ⟨-, rfl⟩ | ⟨-, rfl⟩ | ⟨-, rfl⟩ | ⟨h4, -⟩ | ⟨h5, -⟩ := exec_cases h
  · rfl
  · rfl
  · rfl
  · rfl
  · simp [h4] at hop
  · simp [h5] at hop

/-- REKEY leaves the tweak's context (40_schedules.md R114). -/
theorem exec_rekey_keeps_tweak (hop : i.op = 0x1#4) (h : exec i s = .next t) :
    t.et = s.et ∧ t.tweakValid = s.tweakValid := by
  obtain ⟨_, rfl⟩ | ⟨-, rfl⟩ | ⟨hother, -⟩ | ⟨hother, -⟩ | ⟨hother, -⟩ | ⟨hother, -⟩ := exec_cases h
  · exact ⟨rfl, rfl⟩
  · exact ⟨rfl, rfl⟩
  all_goals exact absurd (hop.symm.trans hother) (by decide)

/-- RETWEAK leaves the key's context (40_schedules.md R115). -/
theorem exec_retweak_keeps_key (hop : i.op = 0x2#4) (h : exec i s = .next t) :
    t.ek = s.ek ∧ t.keyValid = s.keyValid := by
  obtain ⟨_, rfl⟩ | ⟨hother, -⟩ | ⟨-, rfl⟩ | ⟨hother, -⟩ | ⟨hother, -⟩ | ⟨hother, -⟩ := exec_cases h
  · exact ⟨rfl, rfl⟩
  · exact absurd (hop.symm.trans hother) (by decide)
  · exact ⟨rfl, rfl⟩
  all_goals exact absurd (hop.symm.trans hother) (by decide)

/-- REKEY after RETWEAK leaves what INIT leaves: RETWEAK keeps `KEYIN`, and the two write different registers. -/
theorem rekey_after_retweak (s : State) :
    (((s.loadTweak (tweakSchedule s.tweakin)).succeed).loadKey
        (keySchedule ((s.loadTweak (tweakSchedule s.tweakin)).succeed).keyin)).succeed =
      ((s.loadKey (keySchedule s.keyin)).loadTweak (tweakSchedule s.tweakin)).succeed := rfl

theorem status_of_context_loaded (hkey : s.keyValid = true) (htweak : s.tweakValid = true) (herr : s.err = false)
    (hcode : s.errcode = none) : s.status = 0x3 := by
  rw [State.status, hkey, htweak, herr, hcode]
  decide

end contextCommands

/-- Settles O32: the state a context command leaves is the old one with the context and the error fields replaced, of which
the window shows `STATUS` alone. -/
theorem contextCommandsFrame : Obligations.ContextCommandsFrame := by
  intro i s t hop h
  have hframe := exec_context_frame hop h
  refine ⟨?keyin, ?tweakin, ?din, ?dout, ?pending, ?answer, ?freeIndex, fun h1 => exec_rekey_keeps_tweak h1 h,
    fun h2 => exec_retweak_keeps_key h2 h, fun off hstatus => windowByte_congr ?bytes⟩
  case bytes =>
    intro r hr
    cases r with
    | status => exact absurd (div_eq_one_of_regAt_status hr) hstatus
    | _ => rw [hframe]; rfl
  all_goals rw [hframe]

/-- Settles O36: REKEY and RETWEAK read different operands and write different registers, so both orders leave what INIT
leaves, with both flags set and the error clear. -/
theorem bootOrdersAgree : Obligations.BootOrdersAgree := fun s b b1 b2 t1 k2 =>
  ⟨_, _, _, _, _, exec_init_of_required b s, exec_rekey_of_required t1 b1 s, exec_retweak_of_required k2 b2 _,
    exec_retweak_of_required k2 b2 s, exec_rekey_of_required t1 b1 _, (retweak_after_rekey s).symm,
    (rekey_after_retweak s).symm, status_of_context_loaded rfl rfl rfl rfl⟩

end Sys2Proof.Machine
end

-- ==== Who writes what in one step (10_state.md sections 2 and 3, 40_schedules.md section 5) ====
section
namespace Sys2Proof.Machine

section commands
variable {w : Word} {s t : State}

/-- `command_effect` with the opcode of the word that has each effect (30_encoding.md R84). -/
theorem command_effect_by_op (h : command w s = .next t) :
    (∃ e, t = s.fail e) ∨
    (wordOp w = 1 ∧ t = (s.loadKey (keySchedule s.keyin)).succeed) ∨
    (wordOp w = 2 ∧ t = (s.loadTweak (tweakSchedule s.tweakin)).succeed) ∨
    (wordOp w = 3 ∧ t = ((s.loadKey (keySchedule s.keyin)).loadTweak (tweakSchedule s.tweakin)).succeed) ∨
    (wordOp w = 4 ∧ s.contextReady = true ∧ t = (s.storeDout (enc s.ek s.et s.din)).succeed) ∨
    (wordOp w = 5 ∧ s.contextReady = true ∧ t = (s.storeDout (dec s.ek s.et s.din)).succeed) := by
  obtain ⟨i, hw, hi⟩ | ⟨_, -, ht⟩ := command_cases h
  · have hop : ∀ op : BitVec 4, i.op = op → wordOp w = op.toNat := fun op heq => heq ▸ (fields_of_decodeWord hw).1.symm
    obtain hfail | ⟨h1, ht⟩ | ⟨h2, ht⟩ | ⟨h3, ht⟩ | ⟨h4, ht⟩ | ⟨h5, ht⟩ := exec_cases hi
    · exact .inl hfail
    · exact .inr (.inl ⟨hop _ h1, ht⟩)
    · exact .inr (.inr (.inl ⟨hop _ h2, ht⟩))
    · exact .inr (.inr (.inr (.inl ⟨hop _ h3, ht⟩)))
    · exact .inr (.inr (.inr (.inr (.inl ⟨hop _ h4, ht⟩))))
    · exact .inr (.inr (.inr (.inr (.inr ⟨hop _ h5, ht⟩))))
  · exact .inl ⟨_, ht⟩

theorem command_keyContext (h : command w s = .next t) :
    (t.ek = s.ek ∧ t.keyValid = s.keyValid) ∨
    ((wordOp w = 1 ∨ wordOp w = 3) ∧ t.err = false ∧ t.ek = keySchedule s.keyin ∧ t.keyValid = true) := by
  obtain ⟨_, rfl⟩ | ⟨h1, rfl⟩ | ⟨-, rfl⟩ | ⟨h3, rfl⟩ | ⟨-, -, rfl⟩ | ⟨-, -, rfl⟩ := command_effect_by_op h
  · exact .inl ⟨rfl, rfl⟩
  · exact .inr ⟨.inl h1, rfl, rfl, rfl⟩
  · exact .inl ⟨rfl, rfl⟩
  · exact .inr ⟨.inr h3, rfl, rfl, rfl⟩
  · exact .inl (by simp)
  · exact .inl (by simp)

theorem command_tweakContext (h : command w s = .next t) :
    (t.et = s.et ∧ t.tweakValid = s.tweakValid) ∨
    ((wordOp w = 2 ∨ wordOp w = 3) ∧ t.err = false ∧ t.et = tweakSchedule s.tweakin ∧ t.tweakValid = true) := by
  obtain ⟨_, rfl⟩ | ⟨-, rfl⟩ | ⟨h2, rfl⟩ | ⟨h3, rfl⟩ | ⟨-, -, rfl⟩ | ⟨-, -, rfl⟩ := command_effect_by_op h
  · exact .inl ⟨rfl, rfl⟩
  · exact .inl ⟨rfl, rfl⟩
  · exact .inr ⟨.inl h2, rfl, rfl, rfl⟩
  · exact .inr ⟨.inr h3, rfl, rfl, rfl⟩
  · exact .inl (by simp)
  · exact .inl (by simp)

theorem command_dout (h : command w s = .next t) :
    t.dout = s.dout ∨
    (s.contextReady = true ∧ t.err = false ∧
      ((wordOp w = 4 ∧ t.dout = enc s.ek s.et s.din) ∨ (wordOp w = 5 ∧ t.dout = dec s.ek s.et s.din))) := by
  obtain ⟨_, rfl⟩ | ⟨-, rfl⟩ | ⟨-, rfl⟩ | ⟨-, rfl⟩ | ⟨h4, hready, rfl⟩ | ⟨h5, hready, rfl⟩ := command_effect_by_op h
  · exact .inl rfl
  · exact .inl rfl
  · exact .inl rfl
  · exact .inl rfl
  · exact .inr ⟨hready, rfl, .inl ⟨h4, rfl⟩⟩
  · exact .inr ⟨hready, rfl, .inr ⟨h5, rfl⟩⟩

/-- No command writes an operand register or touches the events to come (10_state.md R21 to R23). -/
theorem command_keeps_operands (h : command w s = .next t) :
    t.keyin = s.keyin ∧ t.tweakin = s.tweakin ∧ t.din = s.din ∧ t.pending = s.pending := by
  obtain ⟨_, rfl⟩ | rfl | rfl | rfl | ⟨-, _, rfl⟩ := command_effect h <;> exact ⟨rfl, rfl, rfl, rfl⟩

end commands

section steps
variable {s t : State}

theorem resetNext_of_reset {rest : List HostEvent} (h : s.pending = .reset :: rest) : s.ResetNext := by
  rw [State.ResetNext, h]
  trivial

theorem resetNext_of_resetDuring {a : Access} {rest : List HostEvent} (h : s.pending = .resetDuring a :: rest) :
    s.ResetNext := by
  rw [State.ResetNext, h]
  trivial

end steps

/-- Settles O37: the command cases of the step, from a state whose engine is the old one. -/
theorem onlyRekeyInitResetWriteKeyContext : Obligations.OnlyRekeyInitResetWriteKeyContext := by
  intro s t h
  obtain hops | ⟨w, rest, hp, hc⟩ | ⟨hnext, hreset⟩ := step_engine_cases h
  · exact .inl ⟨by rw [hops], by rw [hops]⟩
  · exact (command_keyContext hc).imp id fun hwrite => .inl ⟨w, ⟨rest, hp⟩, hwrite⟩
  · exact .inr (.inr ⟨hnext, by rw [hreset]; rfl, by rw [hreset]; rfl⟩)

/-- Settles O38: the command cases of the step, from a state whose engine is the old one. -/
theorem onlyRetweakInitResetWriteTweakContext : Obligations.OnlyRetweakInitResetWriteTweakContext := by
  intro s t h
  obtain hops | ⟨w, rest, hp, hc⟩ | ⟨hnext, hreset⟩ := step_engine_cases h
  · exact .inl ⟨by rw [hops], by rw [hops]⟩
  · exact (command_tweakContext hc).imp id fun hwrite => .inl ⟨w, ⟨rest, hp⟩, hwrite⟩
  · exact .inr (.inr ⟨hnext, by rw [hreset]; rfl, by rw [hreset]; rfl⟩)

/-- Settles O39: a command that writes `DOUT` had its context, that is both valid flags. -/
theorem onlyBlockCommandsAndResetWriteDout : Obligations.OnlyBlockCommandsAndResetWriteDout := by
  intro s t h
  obtain hops | ⟨w, rest, hp, hc⟩ | ⟨hnext, hreset⟩ := step_engine_cases h
  · exact .inl (by rw [hops])
  · refine (command_dout hc).imp id ?_
    rintro ⟨hready, hresult⟩
    obtain ⟨hkey, htweak⟩ := (contextReady_iff _).1 hready
    exact .inl ⟨w, ⟨rest, hp⟩, hkey, htweak, hresult⟩
  · exact .inr (.inr ⟨hnext, by rw [hreset]; rfl⟩)

/-- Settles O40: of the writes, those to the three operand arrays write one word, and a command writes none. -/
theorem onlyHostAndResetWriteOperands : Obligations.OnlyHostAndResetWriteOperands := by
  intro s t h
  obtain ⟨-, rfl⟩ | ⟨_, _, _, -, -, rfl⟩ | ⟨rest, off, r, w, hp, hr, hw⟩ | ⟨_, hp, rfl⟩ | ⟨_, _, hp, rfl⟩ := step_cases h
  · exact .inl ⟨rfl, rfl, rfl⟩
  · exact .inl ⟨rfl, rfl, rfl⟩
  · obtain ⟨-, hc⟩ | ⟨-, rfl⟩ | ⟨i, rfl, rfl⟩ | ⟨i, rfl, rfl⟩ | ⟨i, rfl, rfl⟩ := writeReg_cases hw
    · obtain ⟨hkeyin, htweakin, hdin, -⟩ := command_keeps_operands hc
      exact .inl ⟨hkeyin, htweakin, hdin⟩
    · exact .inl ⟨rfl, rfl, rfl⟩
    · exact .inr (.inl ⟨off, w, rest, hp, .inl ⟨i, hr, rfl, rfl, rfl⟩⟩)
    · exact .inr (.inl ⟨off, w, rest, hp, .inr (.inl ⟨i, hr, rfl, rfl, rfl⟩)⟩)
    · exact .inr (.inl ⟨off, w, rest, hp, .inr (.inr ⟨i, hr, rfl, rfl, rfl⟩)⟩)
  · exact .inr (.inr ⟨resetNext_of_reset hp, rfl, rfl, rfl⟩)
  · exact .inr (.inr ⟨resetNext_of_resetDuring hp, rfl, rfl, rfl⟩)

end Sys2Proof.Machine
end

-- ==== What every step keeps, and when it answers (10_state.md sections 2 to 4, 42_block_commands.md, 60_exceptions.md) ====
section
namespace Sys2Proof.Machine
variable {s t : State}

/-- A command supplies a context part with its flag, and writes `DOUT` only with both flags set (42_block_commands.md R180). -/
theorem command_keeps_unloadedIsReset {w : Word} (hs : s.UnloadedIsReset) (h : command w s = .next t) :
    t.UnloadedIsReset := by
  obtain ⟨hek, het, hdout⟩ := hs
  obtain ⟨_, rfl⟩ | rfl | rfl | rfl | ⟨hready, _, rfl⟩ := command_effect h
  · exact ⟨hek, het, hdout⟩
  · exact ⟨nofun, het, fun hmissing => hdout (.inr (hmissing.resolve_left nofun))⟩
  · exact ⟨hek, nofun, fun hmissing => hdout (.inl (hmissing.resolve_right nofun))⟩
  · exact ⟨nofun, nofun, fun hmissing => hmissing.elim nofun nofun⟩
  · refine ⟨hek, het, fun hmissing => ?_⟩
    rw [State.succeed_keyValid, State.succeed_tweakValid] at hmissing
    cases hready.symm.trans (contextReady_eq_false_iff.2 hmissing)

theorem step_keeps_unloadedIsReset (hs : s.UnloadedIsReset) (h : step s = .next t) : t.UnloadedIsReset := by
  obtain hops | ⟨w, rest, -, hc⟩ | ⟨-, hreset⟩ := step_engine_cases h
  · rw [hops]
    exact hs
  · exact command_keeps_unloadedIsReset (s := (s.consume rest).reply .writeDone) hs hc
  · rw [hreset]
    exact ⟨fun _ => rfl, fun _ => rfl, fun _ => rfl⟩

/-- An access that is not safe faults (60_exceptions.md R203). -/
theorem portAccess_of_not_safe {a : Access} (h : ¬ a.Safe) (s : State) : ∃ f, portAccess a s = .fault f := by
  cases a with
  | read off size => exact ⟨_, portRead_of_bad (by rw [Access.Safe] at h; omega)⟩
  | write off size w => exact ⟨_, portWrite_of_bad (by rw [Access.Safe] at h; omega) w⟩

theorem step_of_not_safeNext (h : ¬ s.SafeNext) : ∃ f, step s = .fault f := by
  obtain ⟨a, rest, hp, ha⟩ := exists_unsafe_access_of_not_safeNext h
  rw [step_of_pending_cons hp]
  exact portAccess_of_not_safe ha _

/-- Settles O56: both hold of the reset values by computing them. -/
theorem invariantsHoldAtReset : Obligations.InvariantsHoldAtReset := by
  unfold Obligations.InvariantsHoldAtReset
  decide

/-- Settles O57: a step keeps each of the three parts. -/
theorem everyStepKeepsInvariants : Obligations.EveryStepKeepsInvariants := by
  rintro s t ⟨hkey, htweak, herr⟩ h
  exact ⟨step_keeps_keyParity hkey h, step_keeps_tweakParity htweak h, step_keeps_errMatchesCode herr h⟩

/-- Settles O59: reset gives the reset values, and of the other steps a command alone writes what the predicate speaks of. -/
theorem everyStepKeepsUnloadedReset : Obligations.EveryStepKeepsUnloadedReset :=
  fun _ _ => step_keeps_unloadedIsReset

/-- Settles O60: a step answers when its event is safe, and faults when it is not. -/
theorem stepsAnswerUnlessBadAccess : Obligations.StepsAnswerUnlessBadAccess := by
  refine fun s => ⟨fun r hrefused => ?never, step_answers⟩
  case never =>
    by_cases hsafe : s.SafeNext
    · obtain ⟨t, ht⟩ := step_answers hsafe
      cases ht.symm.trans hrefused
    · obtain ⟨f, hf⟩ := step_of_not_safeNext hsafe
      cases hf.symm.trans hrefused

end Sys2Proof.Machine
end

-- ==== The window: its addresses, STATUS, and what a read can show (20_memory.md, 10_state.md, 60_exceptions.md section 4) ====
section
namespace Sys2Proof.Machine

theorem windowOffset_eq_some_iff {addr : Nat} {off : BitVec 8} :
    windowOffset addr = some off ↔ addr = Config.engineBase + off.toNat := by
  have hoff := off.isLt
  unfold windowOffset
  rw [Option.ite_none_right_eq_some, Option.some_inj, ← BitVec.toNat_inj, BitVec.toNat_ofNat, Config.windowSize]
  omega

theorem windowOffset_eq_none_iff {addr : Nat} :
    windowOffset addr = none ↔ addr < Config.engineBase ∨ Config.engineBase + 0xFF < addr := by
  unfold windowOffset Config.windowSize
  simp only [ite_eq_right_iff, reduceCtorEq, imp_false]
  omega

/-- Settles O47: an address has an offset when it lies in the window, and that is its distance from the base. -/
theorem windowAddressesAndOffsets : Obligations.WindowAddressesAndOffsets :=
  ⟨Nat.mul_mod_right 256 _, fun _ => windowOffset_eq_some_iff.2 rfl, fun _ _ => windowOffset_eq_some_iff.1,
    fun _ => windowOffset_eq_none_iff.2⟩

/-- `STATUS` bit by bit: one bit for each flag, a zero bit, the error code, and above it zeros (10_state.md R28). -/
theorem State.status_getLsbD (s : State) (i : Nat) : s.status.getLsbD i =
    if i = 0 then s.keyValid else if i = 1 then s.tweakValid else if i = 2 then s.err else if i = 3 then false
    else (errcodeBits s.errcode).getLsbD (i - 4) := by
  rw [State.status, BitVec.getLsbD_setWidth]
  simp only [BitVec.getLsbD_append]
  match i with
  | 0 | 1 | 2 | 3 => simp
  | i + 4 =>
    have hcode : (errcodeBits s.errcode).getLsbD i = true → i + 4 < 64 := fun h => by
      have := BitVec.lt_of_getLsbD h
      omega
    simpa using hcode

/-- Settles O41: the bits one by one, the error code's being bits 4 to 7. -/
theorem statusRegisterLayout : Obligations.StatusRegisterLayout := by
  refine fun s => ⟨s.status_getLsbD 0, s.status_getLsbD 1, s.status_getLsbD 2, s.status_getLsbD 3, ?errcode,
    fun i hi => ?above, rfl, fun _ => rfl⟩
  case errcode =>
    ext j hj
    rw [BitVec.getElem_extractLsb', State.status_getLsbD, if_neg (by omega), if_neg (by omega), if_neg (by omega),
      if_neg (by omega), Nat.add_sub_cancel_left, BitVec.getLsbD_eq_getElem]
  case above =>
    rw [State.status_getLsbD, if_neg (by omega), if_neg (by omega), if_neg (by omega), if_neg (by omega)]
    exact BitVec.getLsbD_of_ge _ _ (by omega)

/-- What a host reads of a register is none of `KEYIN`, `EK` and `ET` (10_state.md R21, R25, R26). -/
theorem readReg_of_other_key (s : State) (k : Words4) (e : Words5) (x : Words3) (r : Reg) :
    ({ s with keyin := k, ek := e, et := x } : State).readReg r = s.readReg r := by
  cases r <;> rfl

/-- Settles O49: whether a read is answered depends on the access alone, and its data on the other registers. -/
theorem hostReadsRevealNoKeyMaterial : Obligations.HostReadsRevealNoKeyMaterial := by
  intro s k e x off size
  cases hform : goodForm off size with
  | false =>
    have hbad := (goodForm_eq_false_iff off size).1 hform
    exact .inl ⟨_, portRead_of_bad_form hbad, portRead_of_bad_form hbad⟩
  | true =>
    rw [portRead_of_good_form hform, portRead_of_good_form hform]
    cases regAt off with
    | none => exact .inl ⟨_, rfl, rfl⟩
    | some r => exact .inr ⟨_, rfl, by rw [Option.elim_some, readReg_of_other_key]⟩

end Sys2Proof.Machine
end

-- ==== Steps in order: the oldest event served, a result read at once, reset during an access (20_memory.md section 6) ====
section
namespace Sys2Proof.Machine

section steps
variable {s t u : State} {off : BitVec 8} {v : Word} {r : Reg} {rest : List HostEvent} {n : Nat}

theorem goodForm_of_regAt (h : regAt off = some r) : goodForm off 8 = true :=
  (goodForm_iff off 8).2 ⟨rfl, ((regAt_isSome_iff off).1 (Option.isSome_of_eq_some h)).1⟩

theorem step_of_pending_sd (hp : s.pending = sd off v :: rest) (hr : regAt off = some r) :
    step s = writeReg r v ((s.consume rest).reply .writeDone) := by
  rw [step_of_pending_cons hp]
  exact (portWrite_of_good_form (goodForm_of_regAt hr)).trans (by rw [hr, Option.elim_some])

theorem step_of_pending_ld (hp : s.pending = ld off :: rest) (hr : regAt off = some r) :
    step s = .next ((s.consume rest).reply (.readData (s.readReg r))) := by
  rw [step_of_pending_cons hp]
  refine (portRead_of_good_form (goodForm_of_regAt hr)).trans ?_
  rw [hr, Option.elim_some]
  cases r <;> rfl

/-- A run that begins with a register write. -/
theorem reaches_of_pending_sd (hp : s.pending = sd off v :: rest) (hr : regAt off = some r)
    (hw : writeReg r v ((s.consume rest).reply .writeDone) = .next u) (h : u.Reaches n t) : s.Reaches (n + 1) t :=
  State.reaches_succ.2 ⟨u, (step_of_pending_sd hp hr).trans hw, h⟩

/-- A run of one register read. -/
theorem reaches_one_of_pending_ld (hp : s.pending = ld off :: rest) (hr : regAt off = some r) :
    s.Reaches 1 ((s.consume rest).reply (.readData (s.readReg r))) :=
  State.reaches_succ.2 ⟨_, step_of_pending_ld hp hr, State.reaches_zero.2 rfl⟩

theorem writeReg_keeps_pending (h : writeReg r v s = .next t) : t.pending = s.pending := by
  obtain ⟨-, hc⟩ | ⟨-, rfl⟩ | ⟨i, rfl, rfl⟩ | ⟨i, rfl, rfl⟩ | ⟨i, rfl, rfl⟩ := writeReg_cases h
  · obtain ⟨-, -, -, hpending⟩ := command_keeps_operands hc
    exact hpending
  all_goals rfl

/-- The event a step serves is taken, and no event serves or adds another (20_memory.md R61). -/
theorem step_pending (h : step s = .next t) : t.pending = s.pending.tail := by
  obtain ⟨hp, rfl⟩ | ⟨_, _, _, hp, -, rfl⟩ | ⟨_, _, _, _, hp, -, hw⟩ | ⟨_, hp, rfl⟩ | ⟨_, _, hp, rfl⟩ := step_cases h
  · rw [hp]; rfl
  · rw [hp]; rfl
  · rw [writeReg_keeps_pending hw, hp]; rfl
  · rw [hp]; rfl
  · rw [hp]; rfl

theorem step_of_pending_nil (h : s.pending = []) : step s = .next s := by
  rw [step, serveNext, h]

/-- The registers that a host can both write and read back stand at `0x30` to `0x58` (20_memory.md R57, R58). -/
theorem regAt_tweakin_or_din (haligned : off.toNat % 8 = 0) (hlow : 0x30 ≤ off.toNat) (hhigh : off.toNat < 0x60) :
    (∃ i, regAt off = some (.tweakin i)) ∨ ∃ i, regAt off = some (.din i) := by
  rw [regAt_of_aligned haligned, if_neg (by omega), if_neg (by omega), if_neg (by omega)]
  by_cases htweak : off.toNat ≤ 0x38
  · exact .inl ⟨_, if_pos htweak⟩
  · exact .inr ⟨_, (if_neg htweak).trans (if_pos (by omega))⟩

theorem blockCommand_consume_reply {f : Words5 → Words3 → Words4 → Words4} {blen : Nat} (a : Answer)
    (h : blockCommand f blen s = .next t) :
    blockCommand f blen ((s.consume rest).reply a) = .next ((t.consume rest).reply a) := by
  unfold blockCommand at h
  split_ifs at h with hready hblen <;> cases h
  · exact (if_neg (not_not_intro hready)).trans (if_pos hblen)
  · exact (if_neg (not_not_intro hready)).trans (if_neg hblen)
  · exact if_pos hready

/-- A command reads nothing of the host's side, and leaves it as it is. -/
theorem exec_consume_reply {i : Instr} (a : Answer) (h : exec i s = .next t) :
    exec i ((s.consume rest).reply a) = .next ((t.consume rest).reply a) := by
  cases i with
  | rekey klen tlen blen =>
    simp only [exec, execRekey] at h ⊢
    split_ifs at h ⊢ <;> cases h <;> rfl
  | retweak klen tlen blen =>
    simp only [exec, execRetweak] at h ⊢
    split_ifs at h ⊢ <;> cases h <;> rfl
  | init klen tlen blen =>
    simp only [exec, execInit] at h ⊢
    split_ifs at h ⊢ <;> cases h <;> rfl
  | encrypt klen tlen blen => exact blockCommand_consume_reply (f := enc) a h
  | decrypt klen tlen blen => exact blockCommand_consume_reply (f := dec) a h

theorem command_consume_reply {w : Word} (a : Answer) (h : command w s = .next t) :
    command w ((s.consume rest).reply a) = .next ((t.consume rest).reply a) := by
  obtain ⟨i, hw, hi⟩ | ⟨e, hw, rfl⟩ := command_cases h
  · rw [command_of_decodeWord hw, exec_consume_reply a hi]
  · rw [command, hw]
    rfl

/-- An abandoned access faults, hangs, or completes in the way of its own kind (60_exceptions.md R209). -/
theorem abandonedAnswer_cases (k : Nat) (a : Access) :
    abandonedAnswer k a = .errorResponse ∨ abandonedAnswer k a = .noAnswer ∨
    (∃ off size d, a = .read off size ∧ abandonedAnswer k a = .readData d) ∨
    (∃ off size w, a = .write off size w ∧ abandonedAnswer k a = .writeDone) := by
  unfold abandonedAnswer
  cases Config.abandonedResult k with
  | faults => exact .inl rfl
  | hangs => exact .inr (.inl rfl)
  | completes =>
    cases a with
    | read off size => exact .inr (.inr (.inl ⟨_, _, _, rfl, rfl⟩))
    | write off size w => exact .inr (.inr (.inr ⟨_, _, _, rfl, rfl⟩))

/-- A register that shows the word just written to it, read right after the write. -/
theorem reaches_two_of_write_read (hp : s.pending = sd off v :: ld off :: rest) (hr : regAt off = some r)
    (hw : writeReg r v ((s.consume (ld off :: rest)).reply .writeDone) = .next t) (hpending : t.pending = ld off :: rest)
    (hread : t.readReg r = v) : ∃ u, s.Reaches 2 u ∧ u.answer = some (.readData v) ∧ u.pending = rest :=
  ⟨_, reaches_of_pending_sd hp hr hw (reaches_one_of_pending_ld hpending hr), by rw [hread]; rfl, rfl⟩

end steps

/-- Settles O50: the bytes decode as the word does, and the write of `CMD` runs the command of the word. -/
theorem stepRunsDecodedCommand : Obligations.StepRunsDecodedCommand := by
  intro s w rest i hp hdecode
  have hword := decodeWord_of_decode_leBytes hdecode
  obtain ⟨hwf, -⟩ := encodeOfDecodedWord w i hword
  exact ⟨hwf, (step_command s w rest hp).trans (command_of_decodeWord hword _)⟩

/-- Settles O51: a step takes one event, and the registers from `0x30` to `0x58` show what was written to them. -/
theorem eventsAreServedInOrder : Obligations.EventsAreServedInOrder := by
  refine ⟨fun s t e rest hp h => ?oldest, fun _ => step_of_pending_nil, fun s off v rest haligned hlow hhigh hp => ?readBack⟩
  case oldest => rw [step_pending h, hp, List.tail_cons]
  case readBack =>
    obtain ⟨i, hr⟩ | ⟨i, hr⟩ := regAt_tweakin_or_din haligned hlow hhigh
    · exact reaches_two_of_write_read hp hr rfl rfl ((Words2.get_set _ i i v).trans (if_pos rfl))
    · exact reaches_two_of_write_read hp hr rfl rfl ((Words4.get_set _ i i v).trans (if_pos rfl))

/-- Settles O52: the write runs the command in a state with the same engine, and the read shows a register of its result. -/
theorem resultIsReadableAtOnce : Obligations.ResultIsReadableAtOnce := by
  intro s w rest
  obtain ⟨u, hu⟩ := command_answers w s
  refine ⟨fun hp => ?status, fun i hp => ?dout⟩
  case status =>
    exact ⟨u, _, hu, reaches_of_pending_sd hp (r := .cmd) rfl (command_consume_reply _ hu)
      (reaches_one_of_pending_ld (r := .status) rfl rfl), rfl⟩
  case dout =>
    have hr : ∀ i : Fin 4, regAt (BitVec.ofNat 8 (0x60 + 8 * i.val)) = some (.dout i) := by decide
    exact ⟨u, _, hu, reaches_of_pending_sd hp (r := .cmd) rfl (command_consume_reply _ hu)
      (reaches_one_of_pending_ld rfl (hr i)), rfl⟩

/-- Settles O53: each `sd` of an expansion writes one word of its array, and the `ld` reads `STATUS`. -/
theorem pseudoInstructionsExpand : Obligations.PseudoInstructionsExpand := by
  refine ⟨fun s k rest hp => ?loadKey, fun s x rest hp => ?loadTweak, fun s p rest hp => ?loadBlock, fun s rest hp => ?readStatus⟩
  case loadKey =>
    exact reaches_of_pending_sd hp rfl rfl (reaches_of_pending_sd rfl rfl rfl (reaches_of_pending_sd rfl rfl rfl
      (reaches_of_pending_sd rfl rfl rfl (State.reaches_zero.2 rfl))))
  case loadTweak =>
    exact reaches_of_pending_sd hp rfl rfl (reaches_of_pending_sd rfl rfl rfl (State.reaches_zero.2 rfl))
  case loadBlock =>
    exact reaches_of_pending_sd hp rfl rfl (reaches_of_pending_sd rfl rfl rfl (reaches_of_pending_sd rfl rfl rfl
      (reaches_of_pending_sd rfl rfl rfl (State.reaches_zero.2 rfl))))
  case readStatus => exact reaches_one_of_pending_ld hp (r := .status) rfl

/-- Settles O55: the step resets the engine and answers with one of the free values. -/
theorem resetWinsOverAccessUnderWay : Obligations.ResetWinsOverAccessUnderWay := by
  intro s a rest hp
  refine ⟨abandon a (s.consume rest), step_of_pending_cons hp, rfl, rfl, ?answer⟩
  case answer =>
    have hanswer : (abandon a (s.consume rest)).answer = some (abandonedAnswer s.freeIndex a) := rfl
    simpa only [hanswer, Option.some_inj] using abandonedAnswer_cases s.freeIndex a

end Sys2Proof.Machine
end
